-- ==== Sys2Proof/Word.lean ====
section
/-! DEFINITION. The word, byte and register-number types of a 32-bit big-endian machine (spec/10_state.md R31, spec/20_memory.md R100). -/

namespace Sys2Proof

/-- A 32-bit register, address or instruction word (spec/10_state.md R31). -/
abbrev Word := BitVec 32

/-- A byte of memory (spec/20_memory.md R100). -/
abbrev Byte := BitVec 8

/-- A register number r[0] .. r[31] (spec/30_encoding.md R204). -/
abbrev RegNum := BitVec 5

/-- An address space identifier (spec/20_memory.md R100). -/
abbrev Asi := BitVec 8

/-- A trap type, TBR.tt (spec/10_state.md R51). -/
abbrev TrapType := BitVec 8

/-- A 36-bit physical address (spec/20_memory.md R132). -/
abbrev PhysAddr := BitVec 36

end Sys2Proof
end

