-- ==== Sys2Proof/Config.lean ====
section
/-! DEFINITION. The implementation parameters of spec/00_scope.md R11 to R15 as plain data, the reference configuration
(log 2), and the free values (log 7). Every parameter that the source leaves open is a field here, so that a statement
about every state is a statement about every implementation (log 1). -/

namespace Sys2Proof

/-- Annex D option group 3 (spec/00_scope.md R11, spec/20_memory.md R130). -/
inductive MmuOption where
  | none | v8ref | v8eref | cacheability
  deriving DecidableEq, Repr

/-- Annex D options 5.2 to 5.4 (spec/00_scope.md R5, R11): no controller, `k` interrupt controllers on input handlers
(extended when `k` > 1), or the IIRC. -/
inductive IntcOption where
  | none
  | basic (k : Nat)
  | iirc
  deriving DecidableEq, Repr

/-- `TABLE_WALK` (spec/00_scope.md R13). -/
inductive TableWalk where
  | hardware | software | both
  deriving DecidableEq, Repr

/-- `SC_FORM` (spec/61_timers_dsu.md R623). -/
inductive ScForm where
  | overflow | equalZero | underflow
  deriving DecidableEq, Repr

/-- An edge of a clock (spec/00_scope.md R14). -/
inductive ClockEdge where
  | rising | falling
  deriving DecidableEq, Repr

/-- `Config.opt.dsu` (spec/61_timers_dsu.md R670): it has no effect on any rule. -/
inductive DsuOption where
  | none | trace | pin
  deriving DecidableEq, Repr

/-- An output that the implementation may wire to an input (spec/61_timers_dsu.md R606, R653). -/
inductive Source where
  /-- `OUT` of the input handler in a slot (spec/60_exceptions.md R564). -/
  | handler (slot : Nat)
  /-- The OR of the fifteen outputs of a group (spec/60_exceptions.md R573). -/
  | group (n : Nat)
  /-- `OUT` of a pulse generator (spec/61_timers_dsu.md R607). -/
  | pulse (n : Nat)
  /-- The strobe of a simple counter (spec/61_timers_dsu.md R624). -/
  | strobe (i : Nat)
  /-- The Out Signal of a timer unit (spec/61_timers_dsu.md R641). -/
  | timer (n : Nat)
  /-- The output of a reduced IIRC (spec/60_exceptions.md R596). -/
  | controller (u : Nat)
  deriving DecidableEq, Repr

/-- An input that a `Source` may drive. -/
inductive Sink where
  | handlerIn (slot : Nat)
  | request (unit channel : Nat)
  | pulseEnable (n : Nat)
  | timerIn (n : Nat)
  deriving DecidableEq, Repr

/-- One simple counter (spec/61_timers_dsu.md R621, R622). -/
structure CounterConfig where
  /-- `SC_ADDR[i]`; the preload register is the next word. -/
  addr : Nat
  /-- The bit of the system control register that enables it. -/
  enableBit : Nat
  /-- Whether its two words can be read. -/
  readable : Bool
  deriving DecidableEq, Repr

/-- One timer unit (spec/61_timers_dsu.md R630 to R632). -/
structure TimerConfig where
  /-- `TUC_REG[n]`. -/
  addr : Nat
  hasPrescaler : Bool
  /-- The timer clock is implemented as a clock source. -/
  hasTimerClock : Bool
  /-- The external clock is implemented as a clock source. -/
  hasExternalClock : Bool
  /-- A store to the Count value word sets the counter. -/
  countWritable : Bool
  deriving DecidableEq, Repr

/-- The options and parameters of one implementation. -/
structure Config where
  -- options (spec/00_scope.md R11)
  divs : Bool
  scan : Bool
  mac : Bool
  awp : Bool
  pwrpsr : Bool
  npasi : Bool
  svt : Bool
  mmu : MmuOption
  intc : IntcOption
  dsu : DsuOption
  -- the base machine (R15)
  nwindows : Nat
  psrImpl : BitVec 4
  psrVer : BitVec 4
  -- the instruction options (R12)
  scanNomatch : Word
  accHiWidth : Nat
  macOp : BitVec 2
  umacOp3 : BitVec 6
  umacccOp3 : BitVec 6
  smacOp3 : BitVec 6
  smacccOp3 : BitVec 6
  asrAccHi : RegNum
  asrAccLo : RegNum
  asrAccFlags : RegNum
  asrAwp : RegNum
  awpLsb : Nat
  psrAwBit : Nat
  psrPawBit : Nat
  wrpsrEtRd : RegNum
  -- the MMU (R13, spec/20_memory.md R134)
  tableWalk : TableWalk
  ctxBits : Nat
  paBits : Nat
  nTlb : Nat
  tlbAsi : Asi
  tlbBase : Nat
  tlbLbBit : Nat
  /-- `SUBPAGE_MAPPING`: no rule reads it (spec/20_memory.md R156; log 37). -/
  subpageMapping : Bool
  /-- FT of a PTD met in a level-3 table: 4 by spec/20_memory.md R135 and R152, 1 by spec/93_implementation_defined.md U42. The
  spec says both, so both are legal implementations (DESIGN CHOICE, log 22). -/
  ptdFault : BitVec 3
  mmuImpl : BitVec 4
  mmuVer : BitVec 4
  -- the input handlers (R14, spec/60_exceptions.md R566, R571, R573)
  nHandlers : Nat
  handlerAsi : Asi
  /-- `IH_CLOCK_RATIO`: recorded and unused, as every ratio and edge below (decision D19; log 36). -/
  handlerClockRatio : Nat
  /-- For each first-stage input 1 .. 15 of an extended controller, the handler slots whose outputs are ORed into it (R573);
  the wiring of a single controller is fixed (R571). -/
  firstStage : List (List Nat)
  -- the IIRC (spec/60_exceptions.md R584, R592, R596): the first base is the main controller's when `intc = iirc`
  iircBases : List Nat
  levelSamples : Nat
  edgePriorSamples : Nat
  irlLatchTransparent : Bool
  /-- `INT_CLOCK_RATIO` and `INT_SAMPLE_EDGE`. -/
  interruptClockRatio : Nat
  interruptSampleEdge : ClockEdge
  -- the pulse generators (spec/61_timers_dsu.md R601 to R603)
  nPpg : Nat
  ppgAsi : Asi
  ppgBase : Nat
  scalerBits : Nat
  counterBits : Nat
  counterSetReadable : Bool
  -- the simple counters (spec/61_timers_dsu.md R620 to R623)
  simpleCounters : List CounterConfig
  scAsi : Asi
  scBits : Nat
  scForm : ScForm
  sysctlAddr : Nat
  -- the simple timers (spec/61_timers_dsu.md R630 to R639)
  timers : List TimerConfig
  stAsi : Asi
  stBits : Nat
  /-- `TIMER_CLOCK_RATIO`, the edge of a divided timer clock, and the minimum length of an external pulse (R631). -/
  timerClockRatio : Nat
  timerClockEdge : ClockEdge
  timerMinimumPulse : Nat
  prescaleCountBits : Nat
  prescaleSelectBits : Nat
  /-- K, the number of divide-by-2 flip-flops (R638). -/
  cascadeLength : Nat
  pcrPselLsb : Nat
  pcrPextBit : Nat
  tcrModeLsb : Nat
  tcrEventLsb : Nat
  tcrOutselLsb : Nat
  tcrInvertBit : Nat
  tcrClkselLsb : Nat
  tcrCeBit : Nat
  tcrInBit : Nat
  tcrOutBit : Nat
  -- which output drives which input (spec/60_exceptions.md R573, R596; spec/61_timers_dsu.md R606, R653)
  wires : List (Sink × Source)
  deriving DecidableEq, Repr

/-- The unassigned op3 codes a MAC instruction may take (spec/30_encoding.md R211). -/
def Config.macOp3s : List (BitVec 6) :=
  [0x09#6, 0x0D#6, 0x19#6, 0x2D#6, 0x2E#6, 0x2F#6, 0x3E#6, 0x3F#6]

/-- The ranges of the instruction and base-machine parameters (spec/00_scope.md R12, R15; spec/30_encoding.md R211). -/
def Config.coreWf (c : Config) : Bool :=
  decide (2 ≤ c.nwindows) && decide (c.nwindows ≤ 32)
  && decide (32 ≤ c.scanNomatch.toNat) && decide (c.accHiWidth ≤ 32)
  && c.macOp == 2#2
  && Config.macOp3s.contains c.umacOp3 && Config.macOp3s.contains c.umacccOp3
  && Config.macOp3s.contains c.smacOp3 && Config.macOp3s.contains c.smacccOp3
  && decide [c.umacOp3, c.umacccOp3, c.smacOp3, c.smacccOp3].Nodup
  && decide (∀ n ∈ [c.asrAccHi, c.asrAccLo, c.asrAccFlags, c.asrAwp], 16 ≤ n.toNat ∧ n ≠ 17#5)
  && decide [c.asrAccHi, c.asrAccLo, c.asrAccFlags, c.asrAwp].Nodup
  && decide (c.awpLsb ≤ 27)
  && decide (14 ≤ c.psrAwBit) && decide (c.psrAwBit ≤ 19)
  && decide (14 ≤ c.psrPawBit) && decide (c.psrPawBit ≤ 19) && decide (c.psrAwBit ≠ c.psrPawBit)
  && decide (c.wrpsrEtRd ≠ 0#5)

/-- A range of byte addresses of one address space. -/
structure Area where
  asi : Asi
  base : Nat
  size : Nat
  deriving DecidableEq, Repr

/-- Whether two ranges have no address in common. -/
def Area.disjoint (a b : Area) : Bool :=
  a.asi != b.asi || decide (a.base + a.size ≤ b.base) || decide (b.base + b.size ≤ a.base)

/-- Whether no two of the ranges have an address in common. -/
def disjointAreas : List Area → Bool
  | [] => true
  | a :: rest => rest.all a.disjoint && disjointAreas rest

/-- The banks of registers of an implementation (spec/20_memory.md R105, R134, R148, R158; spec/60_exceptions.md R566, R584,
R596; spec/61_timers_dsu.md R601, R621, R622, R632). -/
def Config.areas (c : Config) : List Area :=
  (if c.mmu = .v8ref then [⟨0x03#8, 0, 2 ^ 32⟩, ⟨0x04#8, 0, 2 ^ 32⟩] else [])
  ++ (if c.mmu = .v8eref then [⟨0x04#8, 0, 2 ^ 32⟩, ⟨c.tlbAsi, c.tlbBase, 4096⟩] else [])
  ++ (if c.nHandlers = 0 then [] else [⟨c.handlerAsi, 0x1000, 4096⟩])
  ++ (c.iircBases.mapIdx fun u b => ⟨0x01#8, b, if u = 0 then 0x18 else 0x14⟩)
  ++ (if c.nPpg = 0 then [] else [⟨c.ppgAsi, c.ppgBase, 4096⟩])
  ++ (c.simpleCounters.map fun k => ⟨c.scAsi, k.addr, 8⟩)
  ++ (if c.simpleCounters = [] then [] else [⟨c.scAsi, c.sysctlAddr, 4⟩])
  ++ (c.timers.map fun t => ⟨c.stAsi, t.addr, 16⟩)

/-- The combination rules of Annex D options 5.2 to 5.4 (spec/00_scope.md R5, R11): one or more basic controllers, with a
wiring of the fifteen first-stage inputs when they are extended (spec/60_exceptions.md R573), or an IIRC, the first of
`iircBases`, without them; a reduced IIRC only beside an IIRC (spec/60_exceptions.md R596). -/
def Config.interruptWf (c : Config) : Bool :=
  match c.intc with
  | .none => decide (c.iircBases = [])
  | .basic k => decide (1 ≤ k) && (decide (k = 1) || decide (c.firstStage.length = 15)) && decide (c.iircBases = [])
  | .iirc => decide (c.iircBases ≠ [])

/-- The ranges of the MMU and peripheral parameters (spec/00_scope.md R11, R13, R14); the banks do not overlap (decision D18).
That `TLB_BASE` is a multiple of 4096, and that `TLB_ASI` is no address space of memory or of the bypass, is the model's
choice: the spec says only a 4k-byte area at an implementation-defined location in ASI space (DESIGN CHOICE, log 15). So is that
the positions of the fields of PCR and TCR have no range, for which R14 and D30 give none: a field beyond bit 31 reads 0 and
ignores writes (DESIGN CHOICE, log 31). -/
def Config.deviceWf (c : Config) : Bool :=
  decide (c.ctxBits ≤ 7) && decide (12 ≤ c.paBits) && decide (c.paBits ≤ 36)
  && decide (1 ≤ c.nTlb) && decide (c.nTlb ≤ 256) && decide (c.tlbLbBit ≤ 31) && decide (c.tlbBase % 4096 = 0)
  && decide (c.tlbAsi.toNat / 4 ≠ 2) && decide (c.tlbAsi.toNat / 16 ≠ 2)
  && decide (c.nHandlers ≤ 960) && (c.handlerAsi == 0x01#8 || c.handlerAsi == 0xC1#8)
  && decide (∀ b ∈ c.iircBases, b % 4 = 0) && c.interruptWf && disjointAreas c.areas
  && decide (1 ≤ c.levelSamples) && decide (1 ≤ c.edgePriorSamples)
  && decide (c.nPpg ≤ 128) && (c.ppgAsi == 0x01#8 || c.ppgAsi == 0x81#8) && decide (c.ppgBase % 4096 = 0)
  && decide (8 ≤ c.scalerBits) && decide (c.scalerBits ≤ 32)
  && decide (8 ≤ c.counterBits) && decide (c.counterBits ≤ 32)
  && (c.scAsi == 0x01#8 || c.scAsi == 0xC1#8) && decide (8 ≤ c.scBits) && decide (c.scBits ≤ 32)
  && decide (∀ k ∈ c.simpleCounters, k.enableBit ≤ 31 ∧ k.addr % 4 = 0)
  && (c.stAsi == 0x01#8 || c.stAsi == 0xC1#8) && decide (8 ≤ c.stBits) && decide (c.stBits ≤ 32)
  && decide (∀ t ∈ c.timers, t.addr % 16 = 0 ∧ (t.hasTimerClock || t.hasExternalClock) = true)
  && decide (8 ≤ c.prescaleCountBits) && decide (c.prescaleCountBits ≤ 16)
  && decide (2 ≤ c.prescaleSelectBits) && decide (c.prescaleSelectBits ≤ 14)
  && (c.ptdFault == 4#3 || c.ptdFault == 1#3)

/-- A legal implementation: every parameter in the range the source gives it. -/
def Config.wf (c : Config) : Bool := c.coreWf && c.deviceWf

/-- The reference configuration: every option present, every open parameter at a value of the model's choice
(DESIGN CHOICE, log 2). No meaning depends on these values. -/
def Config.reference : Config where
  divs := true
  scan := true
  mac := true
  awp := true
  pwrpsr := true
  npasi := true
  svt := true
  mmu := .v8eref
  intc := .iirc
  dsu := .none
  nwindows := 8
  psrImpl := 0#4
  psrVer := 0#4
  scanNomatch := 0x80000040#32
  accHiWidth := 8
  macOp := 2#2
  umacOp3 := 0x3E#6
  umacccOp3 := 0x2E#6
  smacOp3 := 0x3F#6
  smacccOp3 := 0x2F#6
  asrAccHi := 18#5
  asrAccLo := 19#5
  asrAccFlags := 20#5
  asrAwp := 21#5
  awpLsb := 0
  psrAwBit := 15
  psrPawBit := 14
  wrpsrEtRd := 1#5
  tableWalk := .both
  ctxBits := 7
  paBits := 36
  nTlb := 8
  tlbAsi := 0x05#8
  tlbBase := 0
  tlbLbBit := 0
  subpageMapping := false
  ptdFault := 4#3
  mmuImpl := 0#4
  mmuVer := 0#4
  nHandlers := 15
  handlerAsi := 0xC1#8
  handlerClockRatio := 1
  firstStage := [[1], [2], [3], [4], [5], [6], [7], [8], [9], [10], [11], [12], [13], [14], [15]]
  iircBases := [0x2000]
  levelSamples := 2
  edgePriorSamples := 1
  irlLatchTransparent := false
  interruptClockRatio := 1
  interruptSampleEdge := .rising
  nPpg := 2
  ppgAsi := 0x81#8
  ppgBase := 0x3000
  scalerBits := 16
  counterBits := 24
  counterSetReadable := true
  simpleCounters := [⟨0x4000, 0, true⟩]
  scAsi := 0xC1#8
  scBits := 16
  scForm := .equalZero
  sysctlAddr := 0x4100
  timers := [⟨0x5000, true, true, true, true⟩, ⟨0x5010, false, true, false, false⟩]
  stAsi := 0xC1#8
  stBits := 16
  timerClockRatio := 1
  timerClockEdge := .rising
  timerMinimumPulse := 1
  prescaleCountBits := 8
  prescaleSelectBits := 3
  cascadeLength := 7
  pcrPselLsb := 8
  pcrPextBit := 15
  tcrModeLsb := 0
  tcrEventLsb := 3
  tcrOutselLsb := 6
  tcrInvertBit := 8
  tcrClkselLsb := 9
  tcrCeBit := 11
  tcrInBit := 12
  tcrOutBit := 13
  wires := []

/-- How many earlier samples a controller keeps (spec/60_exceptions.md R592). -/
def Config.historyLength (c : Config) : Nat := max (c.levelSamples - 1) c.edgePriorSamples

/-- A value that the source leaves open and that a run meets afresh: nothing constrains it (log 7). It is applied to
`State.freeCount`, which advances at every draw. -/
opaque Config.freeWord : Nat → Word

/-- The contents that memory holds after a reset, which the source leaves open (spec/10_state.md R65, decision D14): bytes by
address, nothing constrains them (log 9). It is applied to `State.freeCount`. -/
opaque Config.freeMemory : Nat → List (Nat × BitVec 8)

end Sys2Proof
end

