-- ==== Sys2Proof/Syntax.lean ====
section
/-! DEFINITION. The abstract syntax: one constructor of `Instr` per row of spec/opcode_table.json. -/

namespace Sys2Proof

/-- The second operand of a format 3 instruction (spec/30_encoding.md R206): r[rs2], or simm13 sign-extended. -/
inductive Operand2 where
  | reg (rs2 : RegNum)
  | imm (simm13 : BitVec 13)
  deriving DecidableEq, Repr

/-- The shift count operand (spec/30_encoding.md R207): r[rs2], or the 5-bit shcnt. -/
inductive ShiftOperand where
  | reg (rs2 : RegNum)
  | imm (shcnt : BitVec 5)
  deriving DecidableEq, Repr

/-- The software trap number operand (spec/30_encoding.md R217): r[rs2], or a 7-bit immediate. -/
inductive TrapOperand where
  | reg (rs2 : RegNum)
  | imm (number : BitVec 7)
  deriving DecidableEq, Repr

/-- The instructions of spec/opcode_table.json, with the operand fields of their formats (spec/30_encoding.md R202 to
R205, R217). `rd` of a store is the register stored; `a` is the annul bit. -/
inductive Instr where
  /-- CALL (R404). -/
  | call (disp30 : BitVec 30)
  /-- UNIMP (R492). -/
  | unimp (rd : RegNum) (const22 : BitVec 22)
  /-- SETHI (R364). -/
  | sethi (rd : RegNum) (imm22 : BitVec 22)
  /-- BA (R420). -/
  | ba (a : Bool) (disp22 : BitVec 22)
  /-- BN (R421). -/
  | bn (a : Bool) (disp22 : BitVec 22)
  /-- BNE (R422). -/
  | bne (a : Bool) (disp22 : BitVec 22)
  /-- BE (R423). -/
  | be (a : Bool) (disp22 : BitVec 22)
  /-- BG (R424). -/
  | bg (a : Bool) (disp22 : BitVec 22)
  /-- BLE (R425). -/
  | ble (a : Bool) (disp22 : BitVec 22)
  /-- BGE (R426). -/
  | bge (a : Bool) (disp22 : BitVec 22)
  /-- BL (R427). -/
  | bl (a : Bool) (disp22 : BitVec 22)
  /-- BGU (R428). -/
  | bgu (a : Bool) (disp22 : BitVec 22)
  /-- BLEU (R429). -/
  | bleu (a : Bool) (disp22 : BitVec 22)
  /-- BCC (R430). -/
  | bcc (a : Bool) (disp22 : BitVec 22)
  /-- BCS (R431). -/
  | bcs (a : Bool) (disp22 : BitVec 22)
  /-- BPOS (R432). -/
  | bpos (a : Bool) (disp22 : BitVec 22)
  /-- BNEG (R433). -/
  | bneg (a : Bool) (disp22 : BitVec 22)
  /-- BVC (R434). -/
  | bvc (a : Bool) (disp22 : BitVec 22)
  /-- BVS (R435). -/
  | bvs (a : Bool) (disp22 : BitVec 22)
  /-- FBfcc (R402). -/
  | fbfcc (a : Bool) (cond : BitVec 4) (disp22 : BitVec 22)
  /-- CBccc (R403). -/
  | cbccc (a : Bool) (cond : BitVec 4) (disp22 : BitVec 22)
  /-- ADD (R341). -/
  | add (rd rs1 : RegNum) (op : Operand2)
  /-- ADDcc (R342). -/
  | addcc (rd rs1 : RegNum) (op : Operand2)
  /-- ADDX (R343). -/
  | addx (rd rs1 : RegNum) (op : Operand2)
  /-- ADDXcc (R344). -/
  | addxcc (rd rs1 : RegNum) (op : Operand2)
  /-- SUB (R345). -/
  | sub (rd rs1 : RegNum) (op : Operand2)
  /-- SUBcc (R346). -/
  | subcc (rd rs1 : RegNum) (op : Operand2)
  /-- SUBX (R347). -/
  | subx (rd rs1 : RegNum) (op : Operand2)
  /-- SUBXcc (R348). -/
  | subxcc (rd rs1 : RegNum) (op : Operand2)
  /-- AND (R349). -/
  | and (rd rs1 : RegNum) (op : Operand2)
  /-- ANDcc (R350). -/
  | andcc (rd rs1 : RegNum) (op : Operand2)
  /-- ANDN (R351). -/
  | andn (rd rs1 : RegNum) (op : Operand2)
  /-- ANDNcc (R352). -/
  | andncc (rd rs1 : RegNum) (op : Operand2)
  /-- OR (R353). -/
  | or (rd rs1 : RegNum) (op : Operand2)
  /-- ORcc (R354). -/
  | orcc (rd rs1 : RegNum) (op : Operand2)
  /-- ORN (R355). -/
  | orn (rd rs1 : RegNum) (op : Operand2)
  /-- ORNcc (R356). -/
  | orncc (rd rs1 : RegNum) (op : Operand2)
  /-- XOR (R357). -/
  | xor (rd rs1 : RegNum) (op : Operand2)
  /-- XORcc (R358). -/
  | xorcc (rd rs1 : RegNum) (op : Operand2)
  /-- XNOR (R359). -/
  | xnor (rd rs1 : RegNum) (op : Operand2)
  /-- XNORcc (R360). -/
  | xnorcc (rd rs1 : RegNum) (op : Operand2)
  /-- SLL (R361). -/
  | sll (rd rs1 : RegNum) (op : ShiftOperand)
  /-- SRL (R362). -/
  | srl (rd rs1 : RegNum) (op : ShiftOperand)
  /-- SRA (R363). -/
  | sra (rd rs1 : RegNum) (op : ShiftOperand)
  /-- TADDcc (R366). -/
  | taddcc (rd rs1 : RegNum) (op : Operand2)
  /-- TSUBcc (R367). -/
  | tsubcc (rd rs1 : RegNum) (op : Operand2)
  /-- TADDccTV (R368). -/
  | taddccTV (rd rs1 : RegNum) (op : Operand2)
  /-- TSUBccTV (R369). -/
  | tsubccTV (rd rs1 : RegNum) (op : Operand2)
  /-- MULScc (R370). -/
  | mulscc (rd rs1 : RegNum) (op : Operand2)
  /-- UMUL (R371). -/
  | umul (rd rs1 : RegNum) (op : Operand2)
  /-- UMULcc (R372). -/
  | umulcc (rd rs1 : RegNum) (op : Operand2)
  /-- SMUL (R373). -/
  | smul (rd rs1 : RegNum) (op : Operand2)
  /-- SMULcc (R374). -/
  | smulcc (rd rs1 : RegNum) (op : Operand2)
  /-- UDIV (R375). -/
  | udiv (rd rs1 : RegNum) (op : Operand2)
  /-- UDIVcc (R376). -/
  | udivcc (rd rs1 : RegNum) (op : Operand2)
  /-- SDIV (R377). -/
  | sdiv (rd rs1 : RegNum) (op : Operand2)
  /-- SDIVcc (R378). -/
  | sdivcc (rd rs1 : RegNum) (op : Operand2)
  /-- SAVE (R379). -/
  | save (rd rs1 : RegNum) (op : Operand2)
  /-- RESTORE (R380). -/
  | restore (rd rs1 : RegNum) (op : Operand2)
  /-- DIVScc (R250). -/
  | divscc (rd rs1 : RegNum) (op : Operand2)
  /-- SCAN (R260). -/
  | scan (rd rs1 : RegNum) (op : Operand2)
  /-- UMAC (R271). -/
  | umac (rd rs1 : RegNum) (op : Operand2)
  /-- UMACcc (R272). -/
  | umaccc (rd rs1 : RegNum) (op : Operand2)
  /-- SMAC (R273). -/
  | smac (rd rs1 : RegNum) (op : Operand2)
  /-- SMACcc (R274). -/
  | smaccc (rd rs1 : RegNum) (op : Operand2)
  /-- JMPL (R405). -/
  | jmpl (rd rs1 : RegNum) (op : Operand2)
  /-- RETT (R406). -/
  | rett (rs1 : RegNum) (op : Operand2)
  /-- TA (R407). -/
  | ta (rs1 : RegNum) (op : TrapOperand)
  /-- TN (R407). -/
  | tn (rs1 : RegNum) (op : TrapOperand)
  /-- TNE (R407). -/
  | tne (rs1 : RegNum) (op : TrapOperand)
  /-- TE (R407). -/
  | te (rs1 : RegNum) (op : TrapOperand)
  /-- TG (R407). -/
  | tg (rs1 : RegNum) (op : TrapOperand)
  /-- TLE (R407). -/
  | tle (rs1 : RegNum) (op : TrapOperand)
  /-- TGE (R407). -/
  | tge (rs1 : RegNum) (op : TrapOperand)
  /-- TL (R407). -/
  | tl (rs1 : RegNum) (op : TrapOperand)
  /-- TGU (R407). -/
  | tgu (rs1 : RegNum) (op : TrapOperand)
  /-- TLEU (R407). -/
  | tleu (rs1 : RegNum) (op : TrapOperand)
  /-- TCC (R407). -/
  | tcc (rs1 : RegNum) (op : TrapOperand)
  /-- TCS (R407). -/
  | tcs (rs1 : RegNum) (op : TrapOperand)
  /-- TPOS (R407). -/
  | tpos (rs1 : RegNum) (op : TrapOperand)
  /-- TNEG (R407). -/
  | tneg (rs1 : RegNum) (op : TrapOperand)
  /-- TVC (R407). -/
  | tvc (rs1 : RegNum) (op : TrapOperand)
  /-- TVS (R407). -/
  | tvs (rs1 : RegNum) (op : TrapOperand)
  /-- RDY (R480). -/
  | rdy (rd : RegNum)
  /-- STBAR (R482). -/
  | stbar
  /-- RDASR (R481). -/
  | rdasr (rd rs1 : RegNum)
  /-- RDPSR (R483). -/
  | rdpsr (rd : RegNum)
  /-- RDWIM (R484). -/
  | rdwim (rd : RegNum)
  /-- RDTBR (R485). -/
  | rdtbr (rd : RegNum)
  /-- WRY (R486). -/
  | wry (rs1 : RegNum) (op : Operand2)
  /-- WRASR (R487). -/
  | wrasr (rd rs1 : RegNum) (op : Operand2)
  /-- WRPSR (R488). -/
  | wrpsr (rd rs1 : RegNum) (op : Operand2)
  /-- WRWIM (R489). -/
  | wrwim (rs1 : RegNum) (op : Operand2)
  /-- WRTBR (R490). -/
  | wrtbr (rs1 : RegNum) (op : Operand2)
  /-- FLUSH (R491). -/
  | flush (rs1 : RegNum) (op : Operand2)
  /-- FPop1 (R493). -/
  | fpop1 (rd rs1 : RegNum) (opf : BitVec 9) (rs2 : RegNum)
  /-- FPop2 (R493). -/
  | fpop2 (rd rs1 : RegNum) (opf : BitVec 9) (rs2 : RegNum)
  /-- CPop1 (R494). -/
  | cpop1 (rd rs1 : RegNum) (opf : BitVec 9) (rs2 : RegNum)
  /-- CPop2 (R494). -/
  | cpop2 (rd rs1 : RegNum) (opf : BitVec 9) (rs2 : RegNum)
  /-- LDSB (R451). -/
  | ldsb (rd rs1 : RegNum) (op : Operand2)
  /-- LDSH (R452). -/
  | ldsh (rd rs1 : RegNum) (op : Operand2)
  /-- LDUB (R453). -/
  | ldub (rd rs1 : RegNum) (op : Operand2)
  /-- LDUH (R454). -/
  | lduh (rd rs1 : RegNum) (op : Operand2)
  /-- LD (R455). -/
  | ld (rd rs1 : RegNum) (op : Operand2)
  /-- LDD (R456). -/
  | ldd (rd rs1 : RegNum) (op : Operand2)
  /-- STB (R457). -/
  | stb (rd rs1 : RegNum) (op : Operand2)
  /-- STH (R458). -/
  | sth (rd rs1 : RegNum) (op : Operand2)
  /-- ST (R459). -/
  | st (rd rs1 : RegNum) (op : Operand2)
  /-- STD (R460). -/
  | std (rd rs1 : RegNum) (op : Operand2)
  /-- LDSTUB (R461). -/
  | ldstub (rd rs1 : RegNum) (op : Operand2)
  /-- SWAP (R462). -/
  | swap (rd rs1 : RegNum) (op : Operand2)
  /-- LDSBA (R312). -/
  | ldsba (rd rs1 : RegNum) (asi : Asi) (rs2 : RegNum)
  /-- LDSHA (R313). -/
  | ldsha (rd rs1 : RegNum) (asi : Asi) (rs2 : RegNum)
  /-- LDUBA (R314). -/
  | lduba (rd rs1 : RegNum) (asi : Asi) (rs2 : RegNum)
  /-- LDUHA (R315). -/
  | lduha (rd rs1 : RegNum) (asi : Asi) (rs2 : RegNum)
  /-- LDA (R316). -/
  | lda (rd rs1 : RegNum) (asi : Asi) (rs2 : RegNum)
  /-- LDDA (R317). -/
  | ldda (rd rs1 : RegNum) (asi : Asi) (rs2 : RegNum)
  /-- STBA (R318). -/
  | stba (rd rs1 : RegNum) (asi : Asi) (rs2 : RegNum)
  /-- STHA (R319). -/
  | stha (rd rs1 : RegNum) (asi : Asi) (rs2 : RegNum)
  /-- STA (R320). -/
  | sta (rd rs1 : RegNum) (asi : Asi) (rs2 : RegNum)
  /-- STDA (R321). -/
  | stda (rd rs1 : RegNum) (asi : Asi) (rs2 : RegNum)
  /-- LDSTUBA (R324). -/
  | ldstuba (rd rs1 : RegNum) (asi : Asi) (rs2 : RegNum)
  /-- SWAPA (R325). -/
  | swapa (rd rs1 : RegNum) (asi : Asi) (rs2 : RegNum)
  /-- LDF (R465). -/
  | ldf (rd rs1 : RegNum) (op : Operand2)
  /-- LDFSR (R466). -/
  | ldfsr (rd rs1 : RegNum) (op : Operand2)
  /-- LDDF (R467). -/
  | lddf (rd rs1 : RegNum) (op : Operand2)
  /-- STF (R468). -/
  | stf (rd rs1 : RegNum) (op : Operand2)
  /-- STFSR (R469). -/
  | stfsr (rd rs1 : RegNum) (op : Operand2)
  /-- STDFQ (R470). -/
  | stdfq (rd rs1 : RegNum) (op : Operand2)
  /-- STDF (R471). -/
  | stdf (rd rs1 : RegNum) (op : Operand2)
  /-- LDC (R472). -/
  | ldc (rd rs1 : RegNum) (op : Operand2)
  /-- LDCSR (R473). -/
  | ldcsr (rd rs1 : RegNum) (op : Operand2)
  /-- LDDC (R474). -/
  | lddc (rd rs1 : RegNum) (op : Operand2)
  /-- STC (R475). -/
  | stc (rd rs1 : RegNum) (op : Operand2)
  /-- STCSR (R476). -/
  | stcsr (rd rs1 : RegNum) (op : Operand2)
  /-- STDCQ (R477). -/
  | stdcq (rd rs1 : RegNum) (op : Operand2)
  /-- STDC (R478). -/
  | stdc (rd rs1 : RegNum) (op : Operand2)
  deriving DecidableEq, Repr

end Sys2Proof
end

