-- ==== Sys2Proof/WellFormed.lean ====
section
/-! DEFINITION. Which terms of `Instr` are instructions of an implementation: the terms that some 32-bit word of that
implementation decodes to (spec/30_encoding.md R213, R214, R223 to R225). -/

namespace Sys2Proof

/-- An instruction of an absent option does not exist (spec/30_encoding.md R213); register number 0 of RDASR and WRASR
is Y, number 15 of RDASR with `rd` = 0 is STBAR (R223, R224); `rd` of WRPSR is reserved without the partial form (R225). -/
def Instr.wellFormed (c : Config) : Instr → Bool
  | .divscc _ _ _ => c.divs
  | .scan _ _ _ => c.scan
  | .umac _ _ _ => c.mac
  | .umaccc _ _ _ => c.mac
  | .smac _ _ _ => c.mac
  | .smaccc _ _ _ => c.mac
  | .rdasr rd rs1 => rs1 != 0#5 && !(rs1 == 15#5 && rd == 0#5)
  | .wrasr rd _ _ => rd != 0#5
  | .wrpsr rd _ _ => c.pwrpsr || rd == 0#5
  | .call _ | .unimp _ _ | .sethi _ _ | .ba _ _ | .bn _ _ | .bne _ _ | .be _ _ | .bg _ _ | .ble _ _
  | .bge _ _ | .bl _ _ | .bgu _ _ | .bleu _ _ | .bcc _ _ | .bcs _ _ | .bpos _ _ | .bneg _ _ | .bvc _ _
  | .bvs _ _ | .fbfcc _ _ _ | .cbccc _ _ _ | .add _ _ _ | .addcc _ _ _ | .addx _ _ _ | .addxcc _ _ _
  | .sub _ _ _ | .subcc _ _ _ | .subx _ _ _ | .subxcc _ _ _ | .and _ _ _ | .andcc _ _ _ | .andn _ _ _
  | .andncc _ _ _ | .or _ _ _ | .orcc _ _ _ | .orn _ _ _ | .orncc _ _ _ | .xor _ _ _ | .xorcc _ _ _
  | .xnor _ _ _ | .xnorcc _ _ _ | .sll _ _ _ | .srl _ _ _ | .sra _ _ _ | .taddcc _ _ _ | .tsubcc _ _ _
  | .taddccTV _ _ _ | .tsubccTV _ _ _ | .mulscc _ _ _ | .umul _ _ _ | .umulcc _ _ _ | .smul _ _ _
  | .smulcc _ _ _ | .udiv _ _ _ | .udivcc _ _ _ | .sdiv _ _ _ | .sdivcc _ _ _ | .save _ _ _ | .restore _ _ _
  | .jmpl _ _ _ | .rett _ _ | .ta _ _ | .tn _ _ | .tne _ _ | .te _ _ | .tg _ _ | .tle _ _ | .tge _ _
  | .tl _ _ | .tgu _ _ | .tleu _ _ | .tcc _ _ | .tcs _ _ | .tpos _ _ | .tneg _ _ | .tvc _ _ | .tvs _ _
  | .rdy _ | .stbar | .rdpsr _ | .rdwim _ | .rdtbr _ | .wry _ _ | .wrwim _ _ | .wrtbr _ _ | .flush _ _
  | .fpop1 _ _ _ _ | .fpop2 _ _ _ _ | .cpop1 _ _ _ _ | .cpop2 _ _ _ _ | .ldsb _ _ _ | .ldsh _ _ _
  | .ldub _ _ _ | .lduh _ _ _ | .ld _ _ _ | .ldd _ _ _ | .stb _ _ _ | .sth _ _ _ | .st _ _ _ | .std _ _ _
  | .ldstub _ _ _ | .swap _ _ _ | .ldsba _ _ _ _ | .ldsha _ _ _ _ | .lduba _ _ _ _ | .lduha _ _ _ _
  | .lda _ _ _ _ | .ldda _ _ _ _ | .stba _ _ _ _ | .stha _ _ _ _ | .sta _ _ _ _ | .stda _ _ _ _
  | .ldstuba _ _ _ _ | .swapa _ _ _ _ | .ldf _ _ _ | .ldfsr _ _ _ | .lddf _ _ _ | .stf _ _ _ | .stfsr _ _ _
  | .stdfq _ _ _ | .stdf _ _ _ | .ldc _ _ _ | .ldcsr _ _ _ | .lddc _ _ _ | .stc _ _ _ | .stcsr _ _ _
  | .stdcq _ _ _ | .stdc _ _ _ => true

end Sys2Proof
end

