-- ==== Sys2Proof/Decode.lean ====
section
/-! DEFINITION. The decoder of spec/30_encoding.md R223, total on every 32-bit word and on every list of bytes, and after it
the encoder, written from the same tables (R202 to R217). -/

namespace Sys2Proof

/-- What a 32-bit word stands for in an implementation (spec/30_encoding.md R223). -/
inductive Decoded where
  /-- A defined instruction. -/
  | instr (i : Instr)
  /-- No defined instruction: executing it raises illegal_instruction (R213). -/
  | illegal
  /-- An alternate-space opcode with `i` = 1: no instruction, but the privilege check comes first
  (spec/44_alternate_space.md R311, R326). -/
  | altImmediate
  /-- A defined instruction with a nonzero reserved field: the model refuses it (R214). -/
  | reserved
  deriving DecidableEq, Repr

/-! ## Fields (spec/30_encoding.md R202 to R205, R217) -/

/-- `op`, bits 31:30. -/
def fieldOp (w : Word) : BitVec 2 := w.extractLsb' 30 2
/-- `rd`, bits 29:25. -/
def fieldRd (w : Word) : RegNum := w.extractLsb' 25 5
/-- `a`, bit 29. -/
def fieldA (w : Word) : Bool := w.getLsbD 29
/-- `cond`, bits 28:25. -/
def fieldCond (w : Word) : BitVec 4 := w.extractLsb' 25 4
/-- `op2`, bits 24:22. -/
def fieldOp2 (w : Word) : BitVec 3 := w.extractLsb' 22 3
/-- `op3`, bits 24:19. -/
def fieldOp3 (w : Word) : BitVec 6 := w.extractLsb' 19 6
/-- `rs1`, bits 18:14. -/
def fieldRs1 (w : Word) : RegNum := w.extractLsb' 14 5
/-- `i`, bit 13. -/
def fieldI (w : Word) : Bool := w.getLsbD 13
/-- `rs2`, bits 4:0. -/
def fieldRs2 (w : Word) : RegNum := w.extractLsb' 0 5
/-- `asi`, bits 12:5; "unused (zero)" in a register form. -/
def fieldAsi (w : Word) : Asi := w.extractLsb' 5 8
/-- `opf`, bits 13:5. -/
def fieldOpf (w : Word) : BitVec 9 := w.extractLsb' 5 9
/-- `imm22`, `const22` or `disp22`, bits 21:0. -/
def fieldImm22 (w : Word) : BitVec 22 := w.extractLsb' 0 22

/-! ## The opcode maps (spec/30_encoding.md R209, R210, R216) -/

/-- Bicc by `cond` (R216). -/
def branchTable : List (BitVec 4 × (Bool → BitVec 22 → Instr)) :=
  [(0x8#4, .ba), (0x0#4, .bn), (0x9#4, .bne), (0x1#4, .be), (0xA#4, .bg),
   (0x2#4, .ble), (0xB#4, .bge), (0x3#4, .bl), (0xC#4, .bgu), (0x4#4, .bleu),
   (0xD#4, .bcc), (0x5#4, .bcs), (0xE#4, .bpos), (0x6#4, .bneg), (0xF#4, .bvc),
   (0x7#4, .bvs)]

/-- Ticc by `cond` (R216). -/
def trapTable : List (BitVec 4 × (RegNum → TrapOperand → Instr)) :=
  [(0x8#4, .ta), (0x0#4, .tn), (0x9#4, .tne), (0x1#4, .te), (0xA#4, .tg),
   (0x2#4, .tle), (0xB#4, .tge), (0x3#4, .tl), (0xC#4, .tgu), (0x4#4, .tleu),
   (0xD#4, .tcc), (0x5#4, .tcs), (0xE#4, .tpos), (0x6#4, .tneg), (0xF#4, .tvc),
   (0x7#4, .tvs)]

/-- `op` = 2 with `rd`, `rs1` and operand2, options apart (R209). -/
def operateTable : List (BitVec 6 × (RegNum → RegNum → Operand2 → Instr)) :=
  [(0x00#6, .add), (0x10#6, .addcc), (0x08#6, .addx), (0x18#6, .addxcc), (0x04#6, .sub),
   (0x14#6, .subcc), (0x0C#6, .subx), (0x1C#6, .subxcc), (0x01#6, .and), (0x11#6, .andcc),
   (0x05#6, .andn), (0x15#6, .andncc), (0x02#6, .or), (0x12#6, .orcc), (0x06#6, .orn),
   (0x16#6, .orncc), (0x03#6, .xor), (0x13#6, .xorcc), (0x07#6, .xnor), (0x17#6, .xnorcc),
   (0x20#6, .taddcc), (0x21#6, .tsubcc), (0x22#6, .taddccTV), (0x23#6, .tsubccTV), (0x24#6, .mulscc),
   (0x0A#6, .umul), (0x1A#6, .umulcc), (0x0B#6, .smul), (0x1B#6, .smulcc), (0x0E#6, .udiv),
   (0x1E#6, .udivcc), (0x0F#6, .sdiv), (0x1F#6, .sdivcc), (0x3C#6, .save), (0x3D#6, .restore),
   (0x38#6, .jmpl)]

/-- The shifts (R209). -/
def shiftTable : List (BitVec 6 × (RegNum → RegNum → ShiftOperand → Instr)) :=
  [(0x25#6, .sll), (0x26#6, .srl), (0x27#6, .sra)]

/-- `op` = 2 with `rs1` and operand2 and a reserved `rd` (R209, R214). -/
def sourceTable : List (BitVec 6 × (RegNum → Operand2 → Instr)) :=
  [(0x39#6, .rett), (0x3B#6, .flush), (0x32#6, .wrwim), (0x33#6, .wrtbr)]

/-- The state-register reads without `rs1` (R209). -/
def readTable : List (BitVec 6 × (RegNum → Instr)) :=
  [(0x29#6, .rdpsr), (0x2A#6, .rdwim), (0x2B#6, .rdtbr)]

/-- The operate instructions of the absent units (R205). -/
def unitTable : List (BitVec 6 × (RegNum → RegNum → BitVec 9 → RegNum → Instr)) :=
  [(0x34#6, .fpop1), (0x35#6, .fpop2), (0x36#6, .cpop1), (0x37#6, .cpop2)]

/-- `op` = 3 with an address operand2 (R210). -/
def memoryTable : List (BitVec 6 × (RegNum → RegNum → Operand2 → Instr)) :=
  [(0x09#6, .ldsb), (0x0A#6, .ldsh), (0x01#6, .ldub), (0x02#6, .lduh), (0x00#6, .ld),
   (0x03#6, .ldd), (0x05#6, .stb), (0x06#6, .sth), (0x04#6, .st), (0x07#6, .std),
   (0x0D#6, .ldstub), (0x0F#6, .swap), (0x20#6, .ldf), (0x21#6, .ldfsr), (0x23#6, .lddf),
   (0x24#6, .stf), (0x25#6, .stfsr), (0x26#6, .stdfq), (0x27#6, .stdf), (0x30#6, .ldc),
   (0x31#6, .ldcsr), (0x33#6, .lddc), (0x34#6, .stc), (0x35#6, .stcsr), (0x36#6, .stdcq),
   (0x37#6, .stdc)]

/-- The alternate-space instructions (R210, R212). -/
def alternateTable : List (BitVec 6 × (RegNum → RegNum → Asi → RegNum → Instr)) :=
  [(0x19#6, .ldsba), (0x1A#6, .ldsha), (0x11#6, .lduba), (0x12#6, .lduha), (0x10#6, .lda),
   (0x13#6, .ldda), (0x15#6, .stba), (0x16#6, .stha), (0x14#6, .sta), (0x17#6, .stda),
   (0x1D#6, .ldstuba), (0x1F#6, .swapa)]

/-- The instructions that exist with an option only (R211, R213): the op3 of each and whether the implementation has it. -/
def optionTable (c : Config) : List (BitVec 6 × Bool × (RegNum → RegNum → Operand2 → Instr)) :=
  [(0x1D#6, c.divs, .divscc), (0x2C#6, c.scan, .scan),
   (c.umacOp3, c.mac && c.macOp == 2#2, .umac), (c.umacccOp3, c.mac && c.macOp == 2#2, .umaccc),
   (c.smacOp3, c.mac && c.macOp == 2#2, .smac), (c.smacccOp3, c.mac && c.macOp == 2#2, .smaccc)]

/-! ## Decoding -/

/-- operand2 of a format 3 word, if bits 12:5 of its register form are zero (R206, R214). -/
def decodeOperand2 (w : Word) : Option Operand2 :=
  if fieldI w then some (.imm (w.extractLsb' 0 13))
  else if fieldAsi w = 0#8 then some (.reg (fieldRs2 w)) else none

/-- The shift count operand, if bits 12:5 are zero (R207, R214). -/
def decodeShiftOperand (w : Word) : Option ShiftOperand :=
  if fieldAsi w = 0#8 then some (if fieldI w then .imm (w.extractLsb' 0 5) else .reg (fieldRs2 w)) else none

/-- The trap number operand, if bits 12:7 of the immediate form or 12:5 of the register form are zero (R214, R217). -/
def decodeTrapOperand (w : Word) : Option TrapOperand :=
  if fieldI w then
    if w.extractLsb' 7 6 = 0#6 then some (.imm (w.extractLsb' 0 7)) else none
  else if fieldAsi w = 0#8 then some (.reg (fieldRs2 w)) else none

/-- The instruction of an operand whose reserved bits are zero, else the refusal of R214. -/
def Decoded.ofOption {α : Type} (o : Option α) (f : α → Instr) : Decoded :=
  match o with
  | some x => .instr (f x)
  | none => .reserved

/-- A word whose reserved bits satisfy `ok` (R214). -/
def Decoded.whenZero (ok : Bool) (d : Decoded) : Decoded := if ok then d else .reserved

/-- Format 2 (R203, R223). -/
def decodeFormat2 (w : Word) : Decoded :=
  if fieldOp2 w = 0#3 then .instr (.unimp (fieldRd w) (fieldImm22 w))
  else if fieldOp2 w = 2#3 then
    match branchTable.lookup (fieldCond w) with
    | some f => .instr (f (fieldA w) (fieldImm22 w))
    | none => .illegal
  else if fieldOp2 w = 4#3 then .instr (.sethi (fieldRd w) (fieldImm22 w))
  else if fieldOp2 w = 6#3 then .instr (.fbfcc (fieldA w) (fieldCond w) (fieldImm22 w))
  else if fieldOp2 w = 7#3 then .instr (.cbccc (fieldA w) (fieldCond w) (fieldImm22 w))
  else .illegal

/-- op3 = 0x28: RDY, STBAR or RDASR (R223, R224). -/
def decodeReadState (w : Word) : Decoded :=
  .whenZero (w.extractLsb' 0 14 == 0#14)
    (if fieldRs1 w = 0#5 then .instr (.rdy (fieldRd w))
     else if fieldRs1 w = 15#5 ∧ fieldRd w = 0#5 then .instr .stbar
     else .instr (.rdasr (fieldRd w) (fieldRs1 w)))

/-- op3 = 0x30: WRY or WRASR (R223, R224). -/
def decodeWriteState (w : Word) : Decoded :=
  .ofOption (decodeOperand2 w) fun op =>
    if fieldRd w = 0#5 then .wry (fieldRs1 w) op else .wrasr (fieldRd w) (fieldRs1 w) op

/-- Format 3 with `op` = 2 (R209, R223). -/
def decodeOperate (c : Config) (w : Word) : Decoded :=
  match operateTable.lookup (fieldOp3 w) with
  | some f => .ofOption (decodeOperand2 w) (f (fieldRd w) (fieldRs1 w))
  | none =>
  match shiftTable.lookup (fieldOp3 w) with
  | some f => .ofOption (decodeShiftOperand w) (f (fieldRd w) (fieldRs1 w))
  | none =>
  match sourceTable.lookup (fieldOp3 w) with
  | some f => .whenZero (fieldRd w == 0#5) (.ofOption (decodeOperand2 w) (f (fieldRs1 w)))
  | none =>
  match readTable.lookup (fieldOp3 w) with
  | some f => .whenZero (w.extractLsb' 0 19 == 0#19) (.instr (f (fieldRd w)))
  | none =>
  match unitTable.lookup (fieldOp3 w) with
  | some f => .instr (f (fieldRd w) (fieldRs1 w) (fieldOpf w) (fieldRs2 w))
  | none =>
  if fieldOp3 w = 0x28#6 then decodeReadState w
  else if fieldOp3 w = 0x30#6 then decodeWriteState w
  else if fieldOp3 w = 0x31#6 then
    .whenZero (c.pwrpsr || fieldRd w == 0#5) (.ofOption (decodeOperand2 w) (.wrpsr (fieldRd w) (fieldRs1 w)))
  else if fieldOp3 w = 0x3A#6 then
    match trapTable.lookup (fieldCond w) with
    | some f => .whenZero (!fieldA w) (.ofOption (decodeTrapOperand w) (f (fieldRs1 w)))
    | none => .illegal
  else
    match (optionTable c).lookup (fieldOp3 w) with
    | some (present, f) =>
      if present then .ofOption (decodeOperand2 w) (f (fieldRd w) (fieldRs1 w)) else .illegal
    | none => .illegal

/-- Format 3 with `op` = 3 (R210, R223). -/
def decodeMemory (w : Word) : Decoded :=
  match memoryTable.lookup (fieldOp3 w) with
  | some f => .ofOption (decodeOperand2 w) (f (fieldRd w) (fieldRs1 w))
  | none =>
  match alternateTable.lookup (fieldOp3 w) with
  | some f =>
    if fieldI w then .altImmediate else .instr (f (fieldRd w) (fieldRs1 w) (fieldAsi w) (fieldRs2 w))
  | none => .illegal

/-- The decoder of R223. -/
def decode (c : Config) (w : Word) : Decoded :=
  if fieldOp w = 0#2 then decodeFormat2 w
  else if fieldOp w = 1#2 then .instr (.call (w.extractLsb' 0 30))
  else if fieldOp w = 2#2 then decodeOperate c w
  else decodeMemory w

/-- The big-endian word of four bytes, lowest address first (spec/20_memory.md R110, R112). -/
def wordOfBytes (b0 b1 b2 b3 : Byte) : Word := b0 ++ b1 ++ b2 ++ b3

/-- The byte of a word at offset `k` from its address, big-endian (spec/20_memory.md R110). -/
def byteOfWord (w : Word) (k : Nat) : Byte := w.extractLsb' (24 - 8 * k) 8

/-- Decodes the first word of a list of bytes and returns the rest; a list shorter than a word holds none
(spec/30_encoding.md R200). -/
def decodeBytes (c : Config) : List Byte → Option (Decoded × List Byte)
  | b0 :: b1 :: b2 :: b3 :: rest => some (decode c (wordOfBytes b0 b1 b2 b3), rest)
  | _ => none

/-- The bytes of an instruction word as memory holds them (spec/30_encoding.md R200). -/
def bytesOfWord (w : Word) : List Byte := [byteOfWord w 0, byteOfWord w 1, byteOfWord w 2, byteOfWord w 3]

/-- The instruction the reference configuration reads from a table row's word, laid out in memory order. -/
def decodeTableWord (nbits w : Nat) : Option Instr :=
  match decodeBytes Config.reference (bytesOfWord (BitVec.ofNat 32 (w % 2 ^ nbits))) with
  | some (.instr i, _) => some i
  | _ => none

/-! ## Encoding -/

/-- The low 14 bits of an operand2 (R204). -/
def Operand2.bits : Operand2 → BitVec 14
  | .reg rs2 => 0#1 ++ 0#8 ++ rs2
  | .imm simm13 => 1#1 ++ simm13

/-- The low 14 bits of a shift count operand (R207). -/
def ShiftOperand.bits : ShiftOperand → BitVec 14
  | .reg rs2 => 0#1 ++ 0#8 ++ rs2
  | .imm shcnt => 1#1 ++ 0#8 ++ shcnt

/-- The low 14 bits of a trap number operand (R217). -/
def TrapOperand.bits : TrapOperand → BitVec 14
  | .reg rs2 => 0#1 ++ 0#8 ++ rs2
  | .imm number => 1#1 ++ 0#6 ++ number

/-- Format 3 (R204). -/
def format3 (op : BitVec 2) (rd : RegNum) (op3 : BitVec 6) (rs1 : RegNum) (low : BitVec 14) : Word :=
  op ++ rd ++ op3 ++ rs1 ++ low

/-- The alternate-space variant of format 3 (R205). -/
def format3Asi (rd : RegNum) (op3 : BitVec 6) (rs1 : RegNum) (asi : Asi) (rs2 : RegNum) : Word :=
  format3 3#2 rd op3 rs1 (0#1 ++ asi ++ rs2)

/-- The branch form of format 2 (R203). -/
def formatBranch (a : Bool) (cond : BitVec 4) (op2 : BitVec 3) (disp22 : BitVec 22) : Word :=
  0#2 ++ BitVec.ofBool a ++ cond ++ op2 ++ disp22

/-- Ticc (R217). -/
def formatTrap (cond : BitVec 4) (rs1 : RegNum) (op : TrapOperand) : Word :=
  format3 2#2 (0#1 ++ cond) 0x3A#6 rs1 op.bits

/-- The word of an instruction (R202 to R217). -/
def encode (c : Config) : Instr → Word
  | .call disp30 => 1#2 ++ disp30
  | .unimp rd const22 => 0#2 ++ rd ++ 0#3 ++ const22
  | .sethi rd imm22 => 0#2 ++ rd ++ 4#3 ++ imm22
  | .ba a disp22 => formatBranch a 0x8#4 2#3 disp22
  | .bn a disp22 => formatBranch a 0x0#4 2#3 disp22
  | .bne a disp22 => formatBranch a 0x9#4 2#3 disp22
  | .be a disp22 => formatBranch a 0x1#4 2#3 disp22
  | .bg a disp22 => formatBranch a 0xA#4 2#3 disp22
  | .ble a disp22 => formatBranch a 0x2#4 2#3 disp22
  | .bge a disp22 => formatBranch a 0xB#4 2#3 disp22
  | .bl a disp22 => formatBranch a 0x3#4 2#3 disp22
  | .bgu a disp22 => formatBranch a 0xC#4 2#3 disp22
  | .bleu a disp22 => formatBranch a 0x4#4 2#3 disp22
  | .bcc a disp22 => formatBranch a 0xD#4 2#3 disp22
  | .bcs a disp22 => formatBranch a 0x5#4 2#3 disp22
  | .bpos a disp22 => formatBranch a 0xE#4 2#3 disp22
  | .bneg a disp22 => formatBranch a 0x6#4 2#3 disp22
  | .bvc a disp22 => formatBranch a 0xF#4 2#3 disp22
  | .bvs a disp22 => formatBranch a 0x7#4 2#3 disp22
  | .fbfcc a cond disp22 => formatBranch a cond 6#3 disp22
  | .cbccc a cond disp22 => formatBranch a cond 7#3 disp22
  | .add rd rs1 op => format3 2#2 rd 0x00#6 rs1 op.bits
  | .addcc rd rs1 op => format3 2#2 rd 0x10#6 rs1 op.bits
  | .addx rd rs1 op => format3 2#2 rd 0x08#6 rs1 op.bits
  | .addxcc rd rs1 op => format3 2#2 rd 0x18#6 rs1 op.bits
  | .sub rd rs1 op => format3 2#2 rd 0x04#6 rs1 op.bits
  | .subcc rd rs1 op => format3 2#2 rd 0x14#6 rs1 op.bits
  | .subx rd rs1 op => format3 2#2 rd 0x0C#6 rs1 op.bits
  | .subxcc rd rs1 op => format3 2#2 rd 0x1C#6 rs1 op.bits
  | .and rd rs1 op => format3 2#2 rd 0x01#6 rs1 op.bits
  | .andcc rd rs1 op => format3 2#2 rd 0x11#6 rs1 op.bits
  | .andn rd rs1 op => format3 2#2 rd 0x05#6 rs1 op.bits
  | .andncc rd rs1 op => format3 2#2 rd 0x15#6 rs1 op.bits
  | .or rd rs1 op => format3 2#2 rd 0x02#6 rs1 op.bits
  | .orcc rd rs1 op => format3 2#2 rd 0x12#6 rs1 op.bits
  | .orn rd rs1 op => format3 2#2 rd 0x06#6 rs1 op.bits
  | .orncc rd rs1 op => format3 2#2 rd 0x16#6 rs1 op.bits
  | .xor rd rs1 op => format3 2#2 rd 0x03#6 rs1 op.bits
  | .xorcc rd rs1 op => format3 2#2 rd 0x13#6 rs1 op.bits
  | .xnor rd rs1 op => format3 2#2 rd 0x07#6 rs1 op.bits
  | .xnorcc rd rs1 op => format3 2#2 rd 0x17#6 rs1 op.bits
  | .sll rd rs1 op => format3 2#2 rd 0x25#6 rs1 op.bits
  | .srl rd rs1 op => format3 2#2 rd 0x26#6 rs1 op.bits
  | .sra rd rs1 op => format3 2#2 rd 0x27#6 rs1 op.bits
  | .taddcc rd rs1 op => format3 2#2 rd 0x20#6 rs1 op.bits
  | .tsubcc rd rs1 op => format3 2#2 rd 0x21#6 rs1 op.bits
  | .taddccTV rd rs1 op => format3 2#2 rd 0x22#6 rs1 op.bits
  | .tsubccTV rd rs1 op => format3 2#2 rd 0x23#6 rs1 op.bits
  | .mulscc rd rs1 op => format3 2#2 rd 0x24#6 rs1 op.bits
  | .umul rd rs1 op => format3 2#2 rd 0x0A#6 rs1 op.bits
  | .umulcc rd rs1 op => format3 2#2 rd 0x1A#6 rs1 op.bits
  | .smul rd rs1 op => format3 2#2 rd 0x0B#6 rs1 op.bits
  | .smulcc rd rs1 op => format3 2#2 rd 0x1B#6 rs1 op.bits
  | .udiv rd rs1 op => format3 2#2 rd 0x0E#6 rs1 op.bits
  | .udivcc rd rs1 op => format3 2#2 rd 0x1E#6 rs1 op.bits
  | .sdiv rd rs1 op => format3 2#2 rd 0x0F#6 rs1 op.bits
  | .sdivcc rd rs1 op => format3 2#2 rd 0x1F#6 rs1 op.bits
  | .save rd rs1 op => format3 2#2 rd 0x3C#6 rs1 op.bits
  | .restore rd rs1 op => format3 2#2 rd 0x3D#6 rs1 op.bits
  | .divscc rd rs1 op => format3 2#2 rd 0x1D#6 rs1 op.bits
  | .scan rd rs1 op => format3 2#2 rd 0x2C#6 rs1 op.bits
  | .umac rd rs1 op => format3 c.macOp rd c.umacOp3 rs1 op.bits
  | .umaccc rd rs1 op => format3 c.macOp rd c.umacccOp3 rs1 op.bits
  | .smac rd rs1 op => format3 c.macOp rd c.smacOp3 rs1 op.bits
  | .smaccc rd rs1 op => format3 c.macOp rd c.smacccOp3 rs1 op.bits
  | .jmpl rd rs1 op => format3 2#2 rd 0x38#6 rs1 op.bits
  | .rett rs1 op => format3 2#2 0#5 0x39#6 rs1 op.bits
  | .ta rs1 op => formatTrap 0x8#4 rs1 op
  | .tn rs1 op => formatTrap 0x0#4 rs1 op
  | .tne rs1 op => formatTrap 0x9#4 rs1 op
  | .te rs1 op => formatTrap 0x1#4 rs1 op
  | .tg rs1 op => formatTrap 0xA#4 rs1 op
  | .tle rs1 op => formatTrap 0x2#4 rs1 op
  | .tge rs1 op => formatTrap 0xB#4 rs1 op
  | .tl rs1 op => formatTrap 0x3#4 rs1 op
  | .tgu rs1 op => formatTrap 0xC#4 rs1 op
  | .tleu rs1 op => formatTrap 0x4#4 rs1 op
  | .tcc rs1 op => formatTrap 0xD#4 rs1 op
  | .tcs rs1 op => formatTrap 0x5#4 rs1 op
  | .tpos rs1 op => formatTrap 0xE#4 rs1 op
  | .tneg rs1 op => formatTrap 0x6#4 rs1 op
  | .tvc rs1 op => formatTrap 0xF#4 rs1 op
  | .tvs rs1 op => formatTrap 0x7#4 rs1 op
  | .rdy rd => format3 2#2 rd 0x28#6 0#5 0#14
  | .stbar => format3 2#2 0#5 0x28#6 15#5 0#14
  | .rdasr rd rs1 => format3 2#2 rd 0x28#6 rs1 0#14
  | .rdpsr rd => format3 2#2 rd 0x29#6 0#5 0#14
  | .rdwim rd => format3 2#2 rd 0x2A#6 0#5 0#14
  | .rdtbr rd => format3 2#2 rd 0x2B#6 0#5 0#14
  | .wry rs1 op => format3 2#2 0#5 0x30#6 rs1 op.bits
  | .wrasr rd rs1 op => format3 2#2 rd 0x30#6 rs1 op.bits
  | .wrpsr rd rs1 op => format3 2#2 rd 0x31#6 rs1 op.bits
  | .wrwim rs1 op => format3 2#2 0#5 0x32#6 rs1 op.bits
  | .wrtbr rs1 op => format3 2#2 0#5 0x33#6 rs1 op.bits
  | .flush rs1 op => format3 2#2 0#5 0x3B#6 rs1 op.bits
  | .fpop1 rd rs1 opf rs2 => format3 2#2 rd 0x34#6 rs1 (opf ++ rs2)
  | .fpop2 rd rs1 opf rs2 => format3 2#2 rd 0x35#6 rs1 (opf ++ rs2)
  | .cpop1 rd rs1 opf rs2 => format3 2#2 rd 0x36#6 rs1 (opf ++ rs2)
  | .cpop2 rd rs1 opf rs2 => format3 2#2 rd 0x37#6 rs1 (opf ++ rs2)
  | .ldsb rd rs1 op => format3 3#2 rd 0x09#6 rs1 op.bits
  | .ldsh rd rs1 op => format3 3#2 rd 0x0A#6 rs1 op.bits
  | .ldub rd rs1 op => format3 3#2 rd 0x01#6 rs1 op.bits
  | .lduh rd rs1 op => format3 3#2 rd 0x02#6 rs1 op.bits
  | .ld rd rs1 op => format3 3#2 rd 0x00#6 rs1 op.bits
  | .ldd rd rs1 op => format3 3#2 rd 0x03#6 rs1 op.bits
  | .stb rd rs1 op => format3 3#2 rd 0x05#6 rs1 op.bits
  | .sth rd rs1 op => format3 3#2 rd 0x06#6 rs1 op.bits
  | .st rd rs1 op => format3 3#2 rd 0x04#6 rs1 op.bits
  | .std rd rs1 op => format3 3#2 rd 0x07#6 rs1 op.bits
  | .ldstub rd rs1 op => format3 3#2 rd 0x0D#6 rs1 op.bits
  | .swap rd rs1 op => format3 3#2 rd 0x0F#6 rs1 op.bits
  | .ldsba rd rs1 asi rs2 => format3Asi rd 0x19#6 rs1 asi rs2
  | .ldsha rd rs1 asi rs2 => format3Asi rd 0x1A#6 rs1 asi rs2
  | .lduba rd rs1 asi rs2 => format3Asi rd 0x11#6 rs1 asi rs2
  | .lduha rd rs1 asi rs2 => format3Asi rd 0x12#6 rs1 asi rs2
  | .lda rd rs1 asi rs2 => format3Asi rd 0x10#6 rs1 asi rs2
  | .ldda rd rs1 asi rs2 => format3Asi rd 0x13#6 rs1 asi rs2
  | .stba rd rs1 asi rs2 => format3Asi rd 0x15#6 rs1 asi rs2
  | .stha rd rs1 asi rs2 => format3Asi rd 0x16#6 rs1 asi rs2
  | .sta rd rs1 asi rs2 => format3Asi rd 0x14#6 rs1 asi rs2
  | .stda rd rs1 asi rs2 => format3Asi rd 0x17#6 rs1 asi rs2
  | .ldstuba rd rs1 asi rs2 => format3Asi rd 0x1D#6 rs1 asi rs2
  | .swapa rd rs1 asi rs2 => format3Asi rd 0x1F#6 rs1 asi rs2
  | .ldf rd rs1 op => format3 3#2 rd 0x20#6 rs1 op.bits
  | .ldfsr rd rs1 op => format3 3#2 rd 0x21#6 rs1 op.bits
  | .lddf rd rs1 op => format3 3#2 rd 0x23#6 rs1 op.bits
  | .stf rd rs1 op => format3 3#2 rd 0x24#6 rs1 op.bits
  | .stfsr rd rs1 op => format3 3#2 rd 0x25#6 rs1 op.bits
  | .stdfq rd rs1 op => format3 3#2 rd 0x26#6 rs1 op.bits
  | .stdf rd rs1 op => format3 3#2 rd 0x27#6 rs1 op.bits
  | .ldc rd rs1 op => format3 3#2 rd 0x30#6 rs1 op.bits
  | .ldcsr rd rs1 op => format3 3#2 rd 0x31#6 rs1 op.bits
  | .lddc rd rs1 op => format3 3#2 rd 0x33#6 rs1 op.bits
  | .stc rd rs1 op => format3 3#2 rd 0x34#6 rs1 op.bits
  | .stcsr rd rs1 op => format3 3#2 rd 0x35#6 rs1 op.bits
  | .stdcq rd rs1 op => format3 3#2 rd 0x36#6 rs1 op.bits
  | .stdc rd rs1 op => format3 3#2 rd 0x37#6 rs1 op.bits

/-- The bytes of an instruction as memory holds them, lowest address first. -/
def encodeBytes (c : Config) (i : Instr) : List Byte := bytesOfWord (encode c i)

end Sys2Proof
end

