-- ==== Sys2Proof/Machine/State.lean ====
section
/-! DEFINITION. The machine's state as plain data: every piece of state of spec/10_state.md R30 and of the peripheral
blocks (R63), the reasons a step can stop, and the state after reset (R65). -/

namespace Sys2Proof.Machine

/-- What stops the machine because the thing accessed does not exist. -/
inductive Fault where
  /-- Raised by an access whose physical address lies beyond the implemented physical address bits
  (spec/20_memory.md R132, `PA_BITS`). Safe: the machine stops where the spec gives no memory (log 6). -/
  | noPhysicalMemory
  deriving DecidableEq, Repr

/-- Where the spec says that the model refuses (spec/93_implementation_defined.md section 1, treatment `refuse`). Each is
safe: nothing is claimed of what follows. -/
inductive Refusal where
  /-- Raised by an arm of `exec` whose instruction has no meaning yet. -/
  | notModelled (mnemonic : String)
  /-- U9, spec/30_encoding.md R214: an instruction word with a nonzero reserved field. Raised by the step after decoding. -/
  | reservedField
  /-- U7, spec/43_awp_wrpsr.md R300: WRPSR with an `rd` that selects no field. Raised by WRPSR. -/
  | wrpsrSelector
  /-- U11, spec/43_awp_wrpsr.md R293: a write of an AWP value not below NWINDOWS. Raised by WRASR. -/
  | awpRange
  /-- U12, spec/43_awp_wrpsr.md R295: SAVE or RESTORE while AW = 1. Raised by SAVE and RESTORE. -/
  | windowShiftInAlternate
  /-- U15, spec/20_memory.md R104: an ASI or an address of a register bank to which nothing is assigned. Raised by
  alternate-space accesses. -/
  | unassignedSpace
  /-- U16, spec/20_memory.md R121: an access of another width than a word to a peripheral or MMU register. Raised by
  alternate-space accesses. -/
  | registerWidth
  /-- U19, spec/20_memory.md R137: a table walk through a table that is not aligned to its size. Raised by the walk
  and by a probe. -/
  | misalignedTable
  /-- U22, spec/20_memory.md R146: more than one TLB entry matches. Raised by translation and by a
  probe of the V8 MMU. -/
  | multipleTlbMatch
  /-- U25, spec/70_reset_and_hazards.md R717: a fetch of a word stored to since its last FLUSH. Raised by the fetch. -/
  | staleFetch
  /-- U26, spec/46_v8_base_control.md R408: a control transfer in the delay slot of a conditional branch. Raised by
  Bicc, CALL, JMPL and RETT. -/
  | controlCouple
  /-- U28, spec/61_timers_dsu.md R605: a pulse generator started with a zero set value. Raised by stores to SHAPER. -/
  | pulseZero
  /-- U29, spec/61_timers_dsu.md R602: a store to SCALER.cnt. Raised by stores to the pulse generators. -/
  | scalerCountStore
  /-- U31, spec/61_timers_dsu.md R633, R634, R640: a reserved timer code, an unimplemented clock, PV = 0, PSEL above the
  cascade, or a start with reload value 0. Raised by stores to the timers, and by a timer trigger. -/
  | timerReserved
  deriving DecidableEq, Repr

/-- A bus error that the host injects (spec/60_exceptions.md R500, R502). -/
inductive BusError where
  /-- instruction_access_error on the next fetch. -/
  | fetch
  /-- data_access_error on the next data access. -/
  | data
  /-- data_store_error: a buffered store failed after its instruction completed. -/
  | store
  deriving DecidableEq, Repr

/-- One action of an agent other than the processor, or of the processor: the schedule `State.env` is a list of these
(spec/92_eei_decisions.md D19; log 8). -/
inductive Event where
  /-- One instruction step of the processor (spec/60_exceptions.md R501). -/
  | processor
  /-- The reset input (spec/70_reset_and_hazards.md R700). -/
  | reset
  /-- The host drives IRL, without an interrupt controller (spec/60_exceptions.md R520). -/
  | requestLevel (irl : BitVec 4)
  /-- The host drives IN of a handler (spec/60_exceptions.md R561). -/
  | handlerLine (slot : Nat) (level : Bool)
  /-- A sample tick of a handler (spec/60_exceptions.md R562). -/
  | handlerTick (slot : Nat)
  /-- The host drives IRQx of a controller (spec/60_exceptions.md R580). -/
  | requestLine (unit channel : Nat) (level : Bool)
  /-- A sample tick of a controller (spec/60_exceptions.md R591, R592). -/
  | controllerTick (unit : Nat)
  /-- The host drives Enable of a pulse generator (spec/61_timers_dsu.md R600). -/
  | pulseEnable (n : Nat) (level : Bool)
  /-- A count pulse of a pulse generator (spec/61_timers_dsu.md R605). -/
  | countPulse (n : Nat)
  /-- A processor clock tick of a simple counter (spec/61_timers_dsu.md R623). -/
  | counterTick (i : Nat)
  /-- The host drives the In Signal of a timer (spec/61_timers_dsu.md R636). -/
  | timerIn (n : Nat) (level : Bool)
  /-- The In Signal of a timer is synchronised: the edge that may trigger mode 4 (spec/61_timers_dsu.md R631, R636). -/
  | timerSample (n : Nat)
  /-- A tick of the timer clock (spec/61_timers_dsu.md R631). -/
  | timerClock (n : Nat)
  /-- The host drives the external clock of a timer; its rise is a tick (spec/61_timers_dsu.md R631; log 30). -/
  | externalClock (n : Nat) (level : Bool)
  /-- The host injects a bus error (spec/60_exceptions.md R500). -/
  | busError (e : BusError)
  deriving DecidableEq, Repr

/-- A page descriptor of the TLB (spec/20_memory.md R145, R149): words 0 and 1 as software sees them, and LB. -/
structure TlbEntry where
  /-- PPN 31:8, C 7, M 6, R 5, ACC 4:2, OL 1:0. -/
  word0 : Word
  /-- VPN 31:12, K 11:10, CN 9:3, KE 2, V 1, G 0. -/
  word1 : Word
  lb : Bool
  deriving DecidableEq, Repr

/-- An input handler (spec/60_exceptions.md R561), and the level the host drives its IN to. -/
structure Handler where
  inv : Bool
  width : BitVec 2
  en : Bool
  buf : Bool
  shift : BitVec 6
  line : Bool
  deriving DecidableEq, Repr

/-- An IIRC, or a reduced IIRC (spec/60_exceptions.md R581, R596), and the levels the host drives its request lines to. -/
structure Iirc where
  /-- md15 .. md8, as Trigger Mode 0 lays them out (R584). -/
  mode0 : BitVec 16
  /-- md7 .. md1 in bits 15:2, as Trigger Mode 1 lays them out. -/
  mode1 : BitVec 16
  /-- Bit x is irq_latch[x], x = 1 .. 15. -/
  irqLatch : BitVec 16
  /-- Bit x is mask[x], x = 1 .. 15; bit 0 is MKIRL. -/
  mask : BitVec 16
  irlLatch : BitVec 4
  /-- The last samples of the request lines, newest first (R592). -/
  hist : List (BitVec 16)
  /-- The model's own: how many samples have been taken since reset, as far as an edge mode asks (R592, R597; log 41). -/
  seen : Nat
  lines : BitVec 16
  deriving DecidableEq, Repr

/-- A programmable pulse generator (spec/61_timers_dsu.md R602 to R605), and the level the host drives Enable to. -/
structure Ppg where
  scalerSet : Word
  scalerCnt : Word
  counterSet : Word
  counterCnt : Word
  /-- Bits 6, 5, 4, 1 and 0 of SHAPER (R604). -/
  shaper : BitVec 8
  out : Bool
  sRun : Bool
  cRun : Bool
  afterZero : Bool
  enable : Bool
  deriving DecidableEq, Repr

/-- A simple counter (spec/61_timers_dsu.md R620), and whether its last tick made a strobe (R624; log 29). -/
structure SimpleCounter where
  count : Word
  preload : Word
  strobe : Bool
  deriving DecidableEq, Repr

/-- `phase` of a timer counter (spec/61_timers_dsu.md R640). -/
inductive TimerPhase where
  | stopped | counting | halted
  deriving DecidableEq, Repr

/-- What drives the output of a timer (spec/61_timers_dsu.md R640, R641). -/
inductive TimerSource where
  | latched | external | prescaler
  deriving DecidableEq, Repr

/-- The six stored fields of a timer control register (spec/61_timers_dsu.md R634). -/
structure TimerControl where
  mode : BitVec 3
  event : BitVec 3
  outsel : BitVec 2
  invert : Bool
  clksel : BitVec 2
  ce : Bool
  deriving DecidableEq, Repr

/-- A timer unit (spec/61_timers_dsu.md R633 to R640). -/
structure Timer where
  /-- PV, the prescaler counter value (R633). -/
  pv : Word
  /-- PSEL, the prescaler output select. -/
  psel : Word
  /-- PEXT: the external signal clocks the prescaler. -/
  pext : Bool
  control : TimerControl
  reload : Word
  cnt : Word
  phase : TimerPhase
  /-- The normal output signal `o` (R640). -/
  o : Bool
  src : TimerSource
  /-- The prescaler counter PC (R637). -/
  prescale : Word
  /-- The divide-by-2 cascade FF[1 .. K] (R638). -/
  cascade : List Bool
  /-- The level the host drives the In Signal to. -/
  inLine : Bool
  /-- The In Signal as last synchronised to the timer clock (R631, R636). -/
  inSample : Bool
  /-- The level of the external clock. -/
  external : Bool
  deriving DecidableEq, Repr

/-- The state of the machine. -/
structure State where
  /-- The implementation's parameters; no step changes them (log 1). -/
  cfg : Config
  /-- r[1] .. r[7]; entry 0 is never read (spec/10_state.md R32, R33). -/
  globals : Vector Word 8
  /-- W[0 .. 16*NWINDOWS-1] in the first entries (R33). -/
  windows : Vector Word 512
  pc : Word
  npc : Word
  -- PSR (R40): EC and EF are hard-wired 0, impl and ver are parameters
  n : Bool
  z : Bool
  v : Bool
  c : Bool
  pil : BitVec 4
  sup : Bool
  ps : Bool
  et : Bool
  cwp : BitVec 5
  aw : Bool
  paw : Bool
  -- WIM, TBR, Y (R50 to R52)
  wim : Word
  tba : BitVec 20
  tt : TrapType
  y : Word
  -- ancillary state registers (R54 to R58)
  svt : Bool
  accHi : Word
  accLo : Word
  accOverflow : Bool
  accCarry : Bool
  awpReg : BitVec 5
  /-- error_mode (R64). -/
  errorMode : Bool
  -- the MMU (spec/20_memory.md R134, R145)
  mmuEnable : Bool
  mmuNoFault : Bool
  ctp : BitVec 30
  ctx : BitVec 7
  fsr : Word
  far : Word
  tlb : List TlbEntry
  -- the peripherals (spec/10_state.md R63)
  handlers : List Handler
  iircs : List Iirc
  ppgs : List Ppg
  counters : List SimpleCounter
  sysctl : Word
  timers : List Timer
  /-- IRL as the host drives it (spec/60_exceptions.md R520). -/
  irlHost : BitVec 4
  /-- The bus error injected for the next access, if any (log 26). -/
  inject : Option BusError
  /-- The model's own: pc is in the delay slot of a conditional branch (R408; log 25). -/
  condDelay : Bool
  /-- Physical addresses of the words stored to since the last FLUSH of them (R717; log 24). -/
  stale : List Nat
  /-- The stored words and the doublewords (addresses divided by 8) of the FLUSHes that reached no page since the word was
  stored to (spec/48_v8_base_system.md R491; log 24). -/
  flushed : List (Nat × Nat)
  /-- Memory: physical byte addresses, strictly rising, no entry equal to 0 (log 5). -/
  mem : List Host.Cell
  /-- The model's own: what acts next (log 8). -/
  env : List Event
  /-- The model's own: how many free values have been drawn (log 7). -/
  freeCount : Nat
  deriving DecidableEq, Repr

/-- The result of an access that may trap: the value and the state after it, the trap type and the state in which the
trap is taken (a fault's status may be recorded, spec/20_memory.md R152), or a stop. -/
inductive Access (α : Type) where
  | ok (value : α) (s : State)
  | trap (tt : TrapType) (s : State)
  | fault (r : Fault)
  | refused (r : Refusal)
  deriving DecidableEq, Repr

/-- A handler after power-on: zero where nothing is stated (log 3). -/
def Handler.reset : Handler where
  inv := false
  width := 0#2
  en := false
  buf := false
  shift := 0#6
  line := false

/-- An IIRC after power-on: every register 0 (spec/60_exceptions.md R594). R592 leaves the earlier samples open; that they are
0, and the lines at level 0, is the model's choice (DESIGN CHOICE, log 3). -/
def Iirc.reset (c : Config) : Iirc where
  mode0 := 0#16
  mode1 := 0#16
  irqLatch := 0#16
  mask := 0#16
  irlLatch := 0#4
  hist := List.replicate c.historyLength 0#16
  seen := 0
  lines := 0#16

/-- A pulse generator after power-on: not running (spec/61_timers_dsu.md R605), zero where nothing is stated (log 3). -/
def Ppg.reset : Ppg where
  scalerSet := 0#32
  scalerCnt := 0#32
  counterSet := 0#32
  counterCnt := 0#32
  shaper := 0#8
  out := false
  sRun := false
  cRun := false
  afterZero := false
  enable := false

/-- A timer control register after reset (spec/61_timers_dsu.md R651). -/
def TimerControl.reset : TimerControl where
  mode := 0#3
  event := 0#3
  outsel := 0#2
  invert := false
  clksel := 0#2
  ce := false

/-- A timer unit after reset: PCR 1, TCR 0, reload 0, count 0, stopped (spec/61_timers_dsu.md R651); zero where nothing is
stated (log 3). -/
def Timer.reset (c : Config) : Timer where
  pv := 1#32
  psel := 0#32
  pext := false
  control := TimerControl.reset
  reload := 0#32
  cnt := 0#32
  phase := .stopped
  o := false
  src := .latched
  prescale := 0#32
  cascade := List.replicate c.cascadeLength false
  inLine := false
  inSample := false
  external := false

/-- The machine of an implementation right after power-on reset (spec/10_state.md R65, spec/70_reset_and_hazards.md R700):
the values the spec states, and zero for every register it states none for (log 3). -/
def State.resetFor (c : Config) : State where
  cfg := c
  globals := Vector.replicate 8 0#32
  windows := Vector.replicate 512 0#32
  pc := 0#32
  npc := 4#32
  n := false
  z := false
  v := false
  c := false
  pil := 0#4
  sup := true
  ps := false
  et := false
  cwp := 0#5
  aw := false
  paw := false
  wim := 0#32
  tba := 0#20
  tt := 0#8
  y := 0#32
  svt := false
  accHi := 0#32
  accLo := 0#32
  accOverflow := false
  accCarry := false
  awpReg := 0#5
  errorMode := false
  mmuEnable := false
  mmuNoFault := false
  ctp := 0#30
  ctx := 0#7
  fsr := 0#32
  far := 0#32
  tlb := List.replicate c.nTlb ⟨0#32, 0#32, false⟩
  handlers := List.replicate c.nHandlers Handler.reset
  iircs := c.iircBases.map fun _ => Iirc.reset c
  ppgs := List.replicate c.nPpg Ppg.reset
  counters := c.simpleCounters.map fun _ => ⟨0#32, 0#32, false⟩
  sysctl := 0#32
  timers := c.timers.map fun _ => Timer.reset c
  irlHost := 0#4
  inject := none
  condDelay := false
  stale := []
  flushed := []
  mem := []
  env := []
  freeCount := 0

/-- The reference machine right after reset (log 2). -/
def State.reset : State := State.resetFor Config.reference

end Sys2Proof.Machine
end

