-- ==== Sys2Proof/Machine/Ops.lean ====
section
/-! DEFINITION. The shared operations: bit helpers, the register windows, PSR as a word, the program counters, the bytes of
physical memory, taking a trap and returning from one. -/

namespace Sys2Proof.Machine

/-! ## Bits -/

/-- 0 or 1 as a word: a carry that is added, a flag in a register. -/
def bit (b : Bool) : Word := if b then 1#32 else 0#32

/-- The low `n` bits set (all of them for `n` ≥ 32): the width of a register narrower than a word. -/
def lowMask (n : Nat) : Word := BitVec.ofNat 32 (2 ^ n - 1)

/-! ## Register windows (spec/10_state.md R31 to R35) -/

/-- The current window: CWP, or AWP while AW = 1 (R35). -/
def State.window (s : State) : Nat := if s.cfg.awp && s.aw then s.awpReg.toNat else s.cwp.toNat

/-- The place in W of register `r` ≥ 8 of window `w`: (16*w + (r - 8)) mod (16*NWINDOWS), for outs, locals and ins alike
(R33). -/
def windowIndex (c : Config) (w : Nat) (r : RegNum) : Fin 512 :=
  ⟨(16 * w + (r.toNat - 8)) % (16 * c.nwindows) % 512, Nat.mod_lt _ (by decide)⟩

/-- r[r] as window `w` shows it; r[0] reads as zero (R32, R33). -/
def State.regIn (s : State) (w : Nat) (r : RegNum) : Word :=
  if r = 0#5 then 0#32
  else if h : r.toNat < 8 then s.globals[r.toNat]
  else s.windows[windowIndex s.cfg w r]

/-- Writes r[r] of window `w`; a write to r[0] is discarded (R32). -/
def State.setRegIn (s : State) (w : Nat) (r : RegNum) (x : Word) : State :=
  if r = 0#5 then s
  else if h : r.toNat < 8 then { s with globals := s.globals.set r.toNat x }
  else { s with windows := s.windows.set (windowIndex s.cfg w r) x }

/-- r[r] in the current window (R31, R35). -/
def State.reg (s : State) (r : RegNum) : Word := s.regIn s.window r

/-- Writes r[r] of the current window (R31, R32). -/
def State.setReg (s : State) (r : RegNum) (x : Word) : State := s.setRegIn s.window r x

/-- The window SAVE and a trap entry move to (R34). -/
def State.prevWindow (s : State) : BitVec 5 :=
  BitVec.ofNat 5 ((s.cwp.toNat + s.cfg.nwindows - 1) % s.cfg.nwindows)

/-- The window RESTORE and RETT move to (R34). -/
def State.nextWindow (s : State) : BitVec 5 := BitVec.ofNat 5 ((s.cwp.toNat + 1) % s.cfg.nwindows)

/-- Bit `w` of WIM (R50). -/
def State.windowInvalid (s : State) (w : BitVec 5) : Bool := s.wim.getLsbD w.toNat

/-! ## PSR and TBR as words (spec/10_state.md R40, R48, R49, R51) -/

/-- PSR as RDPSR reads it: EC, EF and the reserved bits are 0. -/
def State.psr (s : State) : Word :=
  (s.cfg.psrImpl.zeroExtend 32 <<< 28) ||| (s.cfg.psrVer.zeroExtend 32 <<< 24)
  ||| (bit s.n <<< 23) ||| (bit s.z <<< 22) ||| (bit s.v <<< 21) ||| (bit s.c <<< 20)
  ||| (if s.cfg.awp then (bit s.aw <<< s.cfg.psrAwBit) ||| (bit s.paw <<< s.cfg.psrPawBit) else 0#32)
  ||| (s.pil.zeroExtend 32 <<< 8) ||| (bit s.sup <<< 7) ||| (bit s.ps <<< 6) ||| (bit s.et <<< 5)
  ||| s.cwp.zeroExtend 32

/-- Every writable field of PSR from a word (R40; spec/43_awp_wrpsr.md R301). -/
def State.setPsr (s : State) (x : Word) : State :=
  { s with
    n := x.getLsbD 23, z := x.getLsbD 22, v := x.getLsbD 21, c := x.getLsbD 20
    pil := x.extractLsb' 8 4
    sup := x.getLsbD 7, ps := x.getLsbD 6, et := x.getLsbD 5
    cwp := x.extractLsb' 0 5
    aw := if s.cfg.awp then x.getLsbD s.cfg.psrAwBit else s.aw
    paw := if s.cfg.awp then x.getLsbD s.cfg.psrPawBit else s.paw }

/-- TBR as RDTBR reads it: TBA :: tt :: 0000. -/
def State.tbr (s : State) : Word := s.tba ++ s.tt ++ 0#4

/-! ## The program counters (spec/46_v8_base_control.md R400) -/

/-- Case (a): the next instruction in sequence. -/
def State.advance (s : State) : State := { s with pc := s.npc, npc := s.npc + 4#32, condDelay := false }

/-- Case (b): a delayed transfer to `t`. -/
def State.transfer (s : State) (t : Word) : State := { s with pc := s.npc, npc := t, condDelay := false }

/-- Case (d): the delay instruction is annulled. -/
def State.skip (s : State) : State := { s with pc := s.npc + 4#32, npc := s.npc + 8#32, condDelay := false }

/-- Case (e): a transfer to `t` without a delay instruction. -/
def State.jump (s : State) (t : Word) : State := { s with pc := t, npc := t + 4#32, condDelay := false }

/-! ## Taking a trap, and returning from one (spec/60_exceptions.md R505, R510 to R512; spec/46_v8_base_control.md R406) -/

/-- The handler's address: TBA :: tt :: 0000, or TBA :: 0 with single-vector trapping (R511, R512). -/
def State.trapVector (s : State) (tt : TrapType) : Word :=
  if s.cfg.svt && s.svt then s.tba ++ 0#12 else s.tba ++ tt ++ 0#4

/-- The status registers of a trap entry: AW to PAW, ET cleared, S to PS, supervisor, the previous window, tt (R510;
spec/43_awp_wrpsr.md R291). -/
def State.enterTrapStatus (s : State) (tt : TrapType) : State :=
  { s with
    paw := if s.cfg.awp then s.aw else s.paw
    aw := if s.cfg.awp then false else s.aw
    et := false
    ps := s.sup
    sup := true
    cwp := s.prevWindow
    tt := tt
    condDelay := false }

/-- Trap entry: the status, the trapped pc and npc in r[17] and r[18] of the new window, the handler's address (R510). -/
def State.enterTrap (s : State) (tt : TrapType) : State :=
  let t := ((s.enterTrapStatus tt).setReg 17#5 s.pc).setReg 18#5 s.npc
  { t with pc := s.trapVector tt, npc := s.trapVector tt + 4#32 }

/-- A synchronous trap: taken with ET = 1; with ET = 0 tt is written and the processor enters error mode (R505, R510). -/
def State.raise (s : State) (tt : TrapType) : State :=
  if s.et then s.enterTrap tt else { s with tt := tt, errorMode := true, condDelay := false }

/-- What RETT does when it does not trap (spec/46_v8_base_control.md R406; spec/43_awp_wrpsr.md R292). -/
def State.returnFromTrap (s : State) (target : Word) : State :=
  { s with
    pc := s.npc
    npc := target
    cwp := s.nextWindow
    sup := s.ps
    et := true
    aw := if s.cfg.awp then s.paw else s.aw
    condDelay := false }

/-! ### Trap types (spec/60_exceptions.md R502) -/

def ttInstructionAccessException : TrapType := 0x01#8
def ttIllegalInstruction : TrapType := 0x02#8
def ttPrivilegedInstruction : TrapType := 0x03#8
def ttFpDisabled : TrapType := 0x04#8
def ttWindowOverflow : TrapType := 0x05#8
def ttWindowUnderflow : TrapType := 0x06#8
def ttMemAddressNotAligned : TrapType := 0x07#8
def ttDataAccessException : TrapType := 0x09#8
def ttTagOverflow : TrapType := 0x0A#8
def ttInstructionAccessError : TrapType := 0x21#8
def ttCpDisabled : TrapType := 0x24#8
def ttDataAccessError : TrapType := 0x29#8
def ttDivisionByZero : TrapType := 0x2A#8
def ttDataStoreError : TrapType := 0x2B#8
def ttDataAccessMmuMiss : TrapType := 0x2C#8
def ttInstructionAccessMmuMiss : TrapType := 0x3C#8
/-- interrupt_level_n. -/
def ttInterrupt (level : BitVec 4) : TrapType := 1#4 ++ level
/-- trap_instruction: 0x80 + the software trap number. -/
def ttSoftware (number : BitVec 7) : TrapType := 1#1 ++ number

/-- The outcome of an instruction that traps. -/
def takeTrap (s : State) (tt : TrapType) : Host.Outcome State Fault Refusal := .next (s.raise tt)

/-- A privileged instruction: with S = 0 it traps privileged_instruction (spec/60_exceptions.md R531). -/
def privileged (s : State) (k : Host.Outcome State Fault Refusal) : Host.Outcome State Fault Refusal :=
  if s.sup then k else takeTrap s ttPrivilegedInstruction

/-! ## Free values (log 7) -/

/-- Draws a value that the source leaves open. -/
def State.drawFree (s : State) : Word × State := (Config.freeWord s.freeCount, { s with freeCount := s.freeCount + 1 })

/-! ## Results of accesses -/

/-- Goes on with an access that succeeded. -/
def Access.bind {α β : Type} (x : Access α) (k : α → State → Access β) : Access β :=
  match x with
  | .ok a s => k a s
  | .trap tt s => .trap tt s
  | .fault r => .fault r
  | .refused r => .refused r

/-- The outcome of an instruction whose access may trap. -/
def Access.outcome {α : Type} (x : Access α) (k : α → State → State) : Host.Outcome State Fault Refusal :=
  match x with
  | .ok a s => .next (k a s)
  | .trap tt s => takeTrap s tt
  | .fault r => .fault r
  | .refused r => .refused r

/-! ## Physical memory (spec/20_memory.md R100, R110) -/

/-- What an unlisted address reads as (log 5). -/
def unlistedByte : Byte := 0#8

/-- The byte at a physical address. -/
def readByte : List Host.Cell → Nat → Byte
  | [], _ => unlistedByte
  | (k, b) :: rest, a => if a = k then b else if a < k then unlistedByte else readByte rest a

/-- Writes the byte at a physical address, keeping the canonical form. -/
def writeByte : List Host.Cell → Nat → Byte → List Host.Cell
  | [], a, x => if x = unlistedByte then [] else [(a, x)]
  | (k, b) :: rest, a, x =>
    if a = k then (if x = unlistedByte then rest else (a, x) :: rest)
    else if a < k then (if x = unlistedByte then (k, b) :: rest else (a, x) :: (k, b) :: rest)
    else (k, b) :: writeByte rest a x

/-- Addresses from `lo` on strictly rising and below 2^36, no entry equal to what an unlisted address reads as. -/
def memoryWfFrom : Nat → List Host.Cell → Bool
  | _, [] => true
  | lo, (k, b) :: rest =>
    decide (lo ≤ k) && decide (k < 2 ^ 36) && decide (b ≠ unlistedByte) && memoryWfFrom (k + 1) rest

/-- The canonical form of a memory. -/
def Memory.wf (m : List Host.Cell) : Bool := memoryWfFrom 0 m

/-- The canonical form of the memory that a list of cells stands for; no address from 2^36 on exists. -/
def canonicalMemory (l : List Host.Cell) : List Host.Cell :=
  l.foldl (fun m c => if c.1 < 2 ^ 36 then writeByte m c.1 c.2 else m) []

/-- The byte of the machine's memory at a physical address. -/
def State.byteAt (s : State) (a : Nat) : Byte := readByte s.mem a

/-- The big-endian halfword at a physical address (R110). -/
def State.halfAt (s : State) (a : Nat) : BitVec 16 := s.byteAt a ++ s.byteAt (a + 1)

/-- The big-endian word at a physical address (R110). -/
def State.wordAt (s : State) (a : Nat) : Word :=
  wordOfBytes (s.byteAt a) (s.byteAt (a + 1)) (s.byteAt (a + 2)) (s.byteAt (a + 3))

/-- Writes a word, big-endian (R110). -/
def writeWord (m : List Host.Cell) (a : Nat) (x : Word) : List Host.Cell :=
  writeByte (writeByte (writeByte (writeByte m a (byteOfWord x 0)) (a + 1) (byteOfWord x 1)) (a + 2) (byteOfWord x 2))
    (a + 3) (byteOfWord x 3)

/-- The physical address of the word a byte lies in. -/
def wordBase (a : Nat) : Nat := a - a % 4

/-- Records that the word at `a` has been stored to since the last FLUSH of it (R164; log 24). -/
def markStale (stale : List Nat) (a : Nat) : List Nat :=
  if stale.contains (wordBase a) then stale else wordBase a :: stale

/-- A store forgets the FLUSHes recorded for its word (R164; log 24). -/
def dropFlushed (flushed : List (Nat × Nat)) (a : Nat) : List (Nat × Nat) :=
  flushed.filter fun p => !decide (p.1 = wordBase a)

/-- A program's store of a byte. -/
def State.storeByte (s : State) (a : Nat) (x : Byte) : State :=
  { s with mem := writeByte s.mem a x, stale := markStale s.stale a, flushed := dropFlushed s.flushed a }

/-- A program's store of a halfword (R110). -/
def State.storeHalf (s : State) (a : Nat) (x : BitVec 16) : State :=
  { s with
    mem := writeByte (writeByte s.mem a (x.extractLsb' 8 8)) (a + 1) (x.extractLsb' 0 8)
    stale := markStale s.stale a
    flushed := dropFlushed s.flushed a }

/-- A program's store of a word (R110). -/
def State.storeWord (s : State) (a : Nat) (x : Word) : State :=
  { s with mem := writeWord s.mem a x, stale := markStale s.stale a, flushed := dropFlushed s.flushed a }

end Sys2Proof.Machine
end

