-- ==== Sys2Proof/Machine/Flags.lean ====
section
/-! DEFINITION. Every condition-code computation (spec/45_v8_base_alu.md R366, R382, R383; spec/40_divide_step.md R250;
spec/42_mac.md R275) and every test of them (spec/30_encoding.md R216). -/

namespace Sys2Proof.Machine

/-- The integer condition codes N, Z, V, C. -/
structure Icc where
  n : Bool
  z : Bool
  v : Bool
  c : Bool
  deriving DecidableEq, Repr

/-- Writes the four condition codes (spec/10_state.md R42). -/
def State.setIcc (s : State) (f : Icc) : State := { s with n := f.n, z := f.z, v := f.v, c := f.c }

/-- Condition codes of an addition with result `res` (R382). -/
def addFlags (a b res : Word) : Icc where
  n := res.msb
  z := res == 0#32
  v := (a.msb && b.msb && !res.msb) || (!a.msb && !b.msb && res.msb)
  c := (a.msb && b.msb) || (!res.msb && (a.msb || b.msb))

/-- Condition codes of a subtraction with result `res` (R383): C is the borrow. -/
def subFlags (a b res : Word) : Icc where
  n := res.msb
  z := res == 0#32
  v := (a.msb && !b.msb && !res.msb) || (!a.msb && b.msb && res.msb)
  c := (!a.msb && b.msb) || (res.msb && (!a.msb || b.msb))

/-- Condition codes of a logical instruction, a multiply or a divide: N and Z of the result, C = 0, and `v` (R372, R376,
R383). -/
def resultFlags (res : Word) (v : Bool) : Icc where
  n := res.msb
  z := res == 0#32
  v := v
  c := false

/-- A nonzero tag in either operand of a tagged instruction (R366). -/
def tagged (a b : Word) : Bool := a.extractLsb' 0 2 != 0#2 || b.extractLsb' 0 2 != 0#2

/-- The condition codes of a tagged instruction: V is also set by a nonzero tag (R366, R367). -/
def Icc.withTags (f : Icc) (a b : Word) : Icc := { f with v := f.v || tagged a b }

/-! ## The sixteen tests (spec/30_encoding.md R216) -/

def testNe (s : State) : Bool := !s.z
def testE (s : State) : Bool := s.z
def testG (s : State) : Bool := !(s.z || (s.n ^^ s.v))
def testLe (s : State) : Bool := s.z || (s.n ^^ s.v)
def testGe (s : State) : Bool := !(s.n ^^ s.v)
def testL (s : State) : Bool := s.n ^^ s.v
def testGu (s : State) : Bool := !(s.c || s.z)
def testLeu (s : State) : Bool := s.c || s.z
def testCc (s : State) : Bool := !s.c
def testCs (s : State) : Bool := s.c
def testPos (s : State) : Bool := !s.n
def testNeg (s : State) : Bool := s.n
def testVc (s : State) : Bool := !s.v
def testVs (s : State) : Bool := s.v

end Sys2Proof.Machine
end

