-- ==== Sys2Proof/Machine/Operands.lean ====
section
/-! DEFINITION. Every operand form (spec/30_encoding.md R206 to R208, R217), and the values the state-register and
special-purpose instructions read. -/

namespace Sys2Proof.Machine

/-- operand2: r[rs2], or simm13 sign-extended (R206). -/
def operand2 (s : State) : Operand2 → Word
  | .reg rs2 => s.reg rs2
  | .imm simm13 => simm13.signExtend 32

/-- The shift count: the low five bits of r[rs2], or shcnt (R207). -/
def shiftCount (s : State) : ShiftOperand → Nat
  | .reg rs2 => ((s.reg rs2).extractLsb' 0 5).toNat
  | .imm shcnt => shcnt.toNat

/-- The software trap number: the low seven bits of r[rs1] + r[rs2], or of r[rs1] + imm7 (R217;
spec/46_v8_base_control.md R407). -/
def trapNumber (s : State) (rs1 : RegNum) : TrapOperand → BitVec 7
  | .reg rs2 => (s.reg rs1 + s.reg rs2).extractLsb' 0 7
  | .imm number => (s.reg rs1 + number.signExtend 32).extractLsb' 0 7

/-- The effective address r[rs1] + operand2, modulo 2^32 (R208). -/
def effectiveAddress (s : State) (rs1 : RegNum) (op : Operand2) : Word := s.reg rs1 + operand2 s op

/-- The effective address of an alternate-space instruction (R208). -/
def alternateAddress (s : State) (rs1 rs2 : RegNum) : Word := s.reg rs1 + s.reg rs2

/-- The value a write to a state register offers: r[rs1] xor operand2 (spec/48_v8_base_system.md R486 to R490). -/
def writeValue (s : State) (rs1 : RegNum) (op : Operand2) : Word := s.reg rs1 ^^^ operand2 s op

/-- The target of a Bicc at pc (R207; spec/46_v8_base_control.md R401). -/
def branchTarget (pc : Word) (disp22 : BitVec 22) : Word := pc + (disp22 ++ 0#2).signExtend 32

/-- The target of a CALL at pc (R207; spec/46_v8_base_control.md R404). -/
def callTarget (pc : Word) (disp30 : BitVec 30) : Word := pc + (disp30 ++ 0#2)

/-- The value SETHI writes (R207; spec/45_v8_base_alu.md R364). -/
def sethiValue (imm22 : BitVec 22) : Word := imm22 ++ 0#10

end Sys2Proof.Machine
end

