-- ==== Sys2Proof/Machine/Arithmetic.lean ====
section
/-! DEFINITION. ADD to XNORcc, the shifts, SETHI and the tagged instructions (spec/45_v8_base_alu.md R340 to R369). -/

namespace Sys2Proof.Machine

/-- The template of R340 without condition codes: sources are read first, r[rd] is written, the next in sequence. -/
def writeResult (s : State) (rd : RegNum) (res : Word) : Host.Outcome State Fault Refusal :=
  .next (s.setReg rd res).advance

/-- The template of R340 with condition codes. -/
def writeResultCc (s : State) (rd : RegNum) (res : Word) (f : Icc) : Host.Outcome State Fault Refusal :=
  .next ((s.setReg rd res).setIcc f).advance

/-- A tagged instruction that traps on overflow (R368, R369): it traps with V, before any write. -/
def writeTaggedTrap (s : State) (rd : RegNum) (res : Word) (f : Icc) : Host.Outcome State Fault Refusal :=
  if f.v then takeTrap s ttTagOverflow else writeResultCc s rd res f

/-- ADD (R341). -/
def execAdd (rd rs1 : RegNum) (op : Operand2) (s : State) : Host.Outcome State Fault Refusal :=
  writeResult s rd (s.reg rs1 + operand2 s op)

/-- ADDcc (R342). -/
def execAddcc (rd rs1 : RegNum) (op : Operand2) (s : State) : Host.Outcome State Fault Refusal :=
  let a := s.reg rs1
  let b := operand2 s op
  writeResultCc s rd (a + b) (addFlags a b (a + b))

/-- ADDX (R343). -/
def execAddx (rd rs1 : RegNum) (op : Operand2) (s : State) : Host.Outcome State Fault Refusal :=
  writeResult s rd (s.reg rs1 + operand2 s op + bit s.c)

/-- ADDXcc (R344). -/
def execAddxcc (rd rs1 : RegNum) (op : Operand2) (s : State) : Host.Outcome State Fault Refusal :=
  let a := s.reg rs1
  let b := operand2 s op
  writeResultCc s rd (a + b + bit s.c) (addFlags a b (a + b + bit s.c))

/-- SUB (R345). -/
def execSub (rd rs1 : RegNum) (op : Operand2) (s : State) : Host.Outcome State Fault Refusal :=
  writeResult s rd (s.reg rs1 - operand2 s op)

/-- SUBcc (R346). -/
def execSubcc (rd rs1 : RegNum) (op : Operand2) (s : State) : Host.Outcome State Fault Refusal :=
  let a := s.reg rs1
  let b := operand2 s op
  writeResultCc s rd (a - b) (subFlags a b (a - b))

/-- SUBX (R347). -/
def execSubx (rd rs1 : RegNum) (op : Operand2) (s : State) : Host.Outcome State Fault Refusal :=
  writeResult s rd (s.reg rs1 - operand2 s op - bit s.c)

/-- SUBXcc (R348). -/
def execSubxcc (rd rs1 : RegNum) (op : Operand2) (s : State) : Host.Outcome State Fault Refusal :=
  let a := s.reg rs1
  let b := operand2 s op
  writeResultCc s rd (a - b - bit s.c) (subFlags a b (a - b - bit s.c))

/-- AND (R349). -/
def execAnd (rd rs1 : RegNum) (op : Operand2) (s : State) : Host.Outcome State Fault Refusal :=
  writeResult s rd (s.reg rs1 &&& operand2 s op)

/-- ANDcc (R350). -/
def execAndcc (rd rs1 : RegNum) (op : Operand2) (s : State) : Host.Outcome State Fault Refusal :=
  let res := s.reg rs1 &&& operand2 s op
  writeResultCc s rd res (resultFlags res false)

/-- ANDN (R351). -/
def execAndn (rd rs1 : RegNum) (op : Operand2) (s : State) : Host.Outcome State Fault Refusal :=
  writeResult s rd (s.reg rs1 &&& ~~~(operand2 s op))

/-- ANDNcc (R352). -/
def execAndncc (rd rs1 : RegNum) (op : Operand2) (s : State) : Host.Outcome State Fault Refusal :=
  let res := s.reg rs1 &&& ~~~(operand2 s op)
  writeResultCc s rd res (resultFlags res false)

/-- OR (R353). -/
def execOr (rd rs1 : RegNum) (op : Operand2) (s : State) : Host.Outcome State Fault Refusal :=
  writeResult s rd (s.reg rs1 ||| operand2 s op)

/-- ORcc (R354). -/
def execOrcc (rd rs1 : RegNum) (op : Operand2) (s : State) : Host.Outcome State Fault Refusal :=
  let res := s.reg rs1 ||| operand2 s op
  writeResultCc s rd res (resultFlags res false)

/-- ORN (R355). -/
def execOrn (rd rs1 : RegNum) (op : Operand2) (s : State) : Host.Outcome State Fault Refusal :=
  writeResult s rd (s.reg rs1 ||| ~~~(operand2 s op))

/-- ORNcc (R356). -/
def execOrncc (rd rs1 : RegNum) (op : Operand2) (s : State) : Host.Outcome State Fault Refusal :=
  let res := s.reg rs1 ||| ~~~(operand2 s op)
  writeResultCc s rd res (resultFlags res false)

/-- XOR (R357). -/
def execXor (rd rs1 : RegNum) (op : Operand2) (s : State) : Host.Outcome State Fault Refusal :=
  writeResult s rd (s.reg rs1 ^^^ operand2 s op)

/-- XORcc (R358). -/
def execXorcc (rd rs1 : RegNum) (op : Operand2) (s : State) : Host.Outcome State Fault Refusal :=
  let res := s.reg rs1 ^^^ operand2 s op
  writeResultCc s rd res (resultFlags res false)

/-- XNOR (R359). -/
def execXnor (rd rs1 : RegNum) (op : Operand2) (s : State) : Host.Outcome State Fault Refusal :=
  writeResult s rd (~~~(s.reg rs1 ^^^ operand2 s op))

/-- XNORcc (R360). -/
def execXnorcc (rd rs1 : RegNum) (op : Operand2) (s : State) : Host.Outcome State Fault Refusal :=
  let res := ~~~(s.reg rs1 ^^^ operand2 s op)
  writeResultCc s rd res (resultFlags res false)

/-- SLL (R361). -/
def execSll (rd rs1 : RegNum) (op : ShiftOperand) (s : State) : Host.Outcome State Fault Refusal :=
  writeResult s rd (s.reg rs1 <<< shiftCount s op)

/-- SRL (R362). -/
def execSrl (rd rs1 : RegNum) (op : ShiftOperand) (s : State) : Host.Outcome State Fault Refusal :=
  writeResult s rd (s.reg rs1 >>> shiftCount s op)

/-- SRA (R363). -/
def execSra (rd rs1 : RegNum) (op : ShiftOperand) (s : State) : Host.Outcome State Fault Refusal :=
  writeResult s rd ((s.reg rs1).sshiftRight (shiftCount s op))

/-- SETHI (R364). -/
def execSethi (rd : RegNum) (imm22 : BitVec 22) (s : State) : Host.Outcome State Fault Refusal :=
  writeResult s rd (sethiValue imm22)

/-- TADDcc (R366). -/
def execTaddcc (rd rs1 : RegNum) (op : Operand2) (s : State) : Host.Outcome State Fault Refusal :=
  let a := s.reg rs1
  let b := operand2 s op
  writeResultCc s rd (a + b) ((addFlags a b (a + b)).withTags a b)

/-- TSUBcc (R367). -/
def execTsubcc (rd rs1 : RegNum) (op : Operand2) (s : State) : Host.Outcome State Fault Refusal :=
  let a := s.reg rs1
  let b := operand2 s op
  writeResultCc s rd (a - b) ((subFlags a b (a - b)).withTags a b)

/-- TADDccTV (R368). -/
def execTaddccTV (rd rs1 : RegNum) (op : Operand2) (s : State) : Host.Outcome State Fault Refusal :=
  let a := s.reg rs1
  let b := operand2 s op
  writeTaggedTrap s rd (a + b) ((addFlags a b (a + b)).withTags a b)

/-- TSUBccTV (R369). -/
def execTsubccTV (rd rs1 : RegNum) (op : Operand2) (s : State) : Host.Outcome State Fault Refusal :=
  let a := s.reg rs1
  let b := operand2 s op
  writeTaggedTrap s rd (a - b) ((subFlags a b (a - b)).withTags a b)

end Sys2Proof.Machine
end

