-- ==== Sys2Proof/Machine/Control.lean ====
section
/-! DEFINITION. Bicc, CALL, JMPL, RETT, Ticc (spec/46_v8_base_control.md R400 to R412, R420 to R435), SAVE and RESTORE
(spec/45_v8_base_alu.md R379, R380), UNIMP and the instructions of the absent units (spec/46_v8_base_control.md R402, R403;
spec/47_v8_base_memory.md R463 to R478; spec/48_v8_base_system.md R492 to R494). -/

namespace Sys2Proof.Machine

/-- A control transfer: in the delay slot of a conditional branch its outcome is undefined and the model refuses (R408; log
25). -/
def controlTransfer (s : State) (k : Host.Outcome State Fault Refusal) : Host.Outcome State Fault Refusal :=
  if s.condDelay then .refused .controlCouple else k

/-- A conditional Bicc (R401, R400 (b) to (d)): a delay instruction that executes is marked as a conditional branch's. -/
def conditionalBranch (taken : Bool) (a : Bool) (disp22 : BitVec 22) (s : State) : Host.Outcome State Fault Refusal :=
  controlTransfer s
    (if taken then .next { s.transfer (branchTarget s.pc disp22) with condDelay := true }
     else if a then .next s.skip
     else .next { s.advance with condDelay := true })

/-- BA (R420): `ba,a` annuls its delay instruction (R400 (e)). -/
def execBa (a : Bool) (disp22 : BitVec 22) (s : State) : Host.Outcome State Fault Refusal :=
  controlTransfer s
    (if a then .next (s.jump (branchTarget s.pc disp22)) else .next (s.transfer (branchTarget s.pc disp22)))

/-- BN (R421): never taken; `bn,a` annuls its delay instruction. -/
def execBn (a : Bool) (_disp22 : BitVec 22) (s : State) : Host.Outcome State Fault Refusal :=
  controlTransfer s (if a then .next s.skip else .next s.advance)

/-- BNE (R422). -/
def execBne (a : Bool) (disp22 : BitVec 22) (s : State) : Host.Outcome State Fault Refusal :=
  conditionalBranch (testNe s) a disp22 s

/-- BE (R423). -/
def execBe (a : Bool) (disp22 : BitVec 22) (s : State) : Host.Outcome State Fault Refusal :=
  conditionalBranch (testE s) a disp22 s

/-- BG (R424). -/
def execBg (a : Bool) (disp22 : BitVec 22) (s : State) : Host.Outcome State Fault Refusal :=
  conditionalBranch (testG s) a disp22 s

/-- BLE (R425). -/
def execBle (a : Bool) (disp22 : BitVec 22) (s : State) : Host.Outcome State Fault Refusal :=
  conditionalBranch (testLe s) a disp22 s

/-- BGE (R426). -/
def execBge (a : Bool) (disp22 : BitVec 22) (s : State) : Host.Outcome State Fault Refusal :=
  conditionalBranch (testGe s) a disp22 s

/-- BL (R427). -/
def execBl (a : Bool) (disp22 : BitVec 22) (s : State) : Host.Outcome State Fault Refusal :=
  conditionalBranch (testL s) a disp22 s

/-- BGU (R428). -/
def execBgu (a : Bool) (disp22 : BitVec 22) (s : State) : Host.Outcome State Fault Refusal :=
  conditionalBranch (testGu s) a disp22 s

/-- BLEU (R429). -/
def execBleu (a : Bool) (disp22 : BitVec 22) (s : State) : Host.Outcome State Fault Refusal :=
  conditionalBranch (testLeu s) a disp22 s

/-- BCC (R430). -/
def execBcc (a : Bool) (disp22 : BitVec 22) (s : State) : Host.Outcome State Fault Refusal :=
  conditionalBranch (testCc s) a disp22 s

/-- BCS (R431). -/
def execBcs (a : Bool) (disp22 : BitVec 22) (s : State) : Host.Outcome State Fault Refusal :=
  conditionalBranch (testCs s) a disp22 s

/-- BPOS (R432). -/
def execBpos (a : Bool) (disp22 : BitVec 22) (s : State) : Host.Outcome State Fault Refusal :=
  conditionalBranch (testPos s) a disp22 s

/-- BNEG (R433). -/
def execBneg (a : Bool) (disp22 : BitVec 22) (s : State) : Host.Outcome State Fault Refusal :=
  conditionalBranch (testNeg s) a disp22 s

/-- BVC (R434). -/
def execBvc (a : Bool) (disp22 : BitVec 22) (s : State) : Host.Outcome State Fault Refusal :=
  conditionalBranch (testVc s) a disp22 s

/-- BVS (R435). -/
def execBvs (a : Bool) (disp22 : BitVec 22) (s : State) : Host.Outcome State Fault Refusal :=
  conditionalBranch (testVs s) a disp22 s

/-- CALL (R404): r[15] receives the address of the CALL. -/
def execCall (disp30 : BitVec 30) (s : State) : Host.Outcome State Fault Refusal :=
  controlTransfer s (.next ((s.setReg 15#5 s.pc).transfer (callTarget s.pc disp30)))

/-- A byte address whose low two bits are not zero (R412). -/
def misalignedTarget (ea : Word) : Bool := ea.extractLsb' 0 2 != 0#2

/-- JMPL (R405): the target is computed from the old registers, and r[rd] receives the address of the JMPL. -/
def execJmpl (rd rs1 : RegNum) (op : Operand2) (s : State) : Host.Outcome State Fault Refusal :=
  controlTransfer s
    (if misalignedTarget (effectiveAddress s rs1 op) then takeTrap s ttMemAddressNotAligned
     else .next ((s.setReg rd s.pc).transfer (effectiveAddress s rs1 op)))

/-- RETT (R406): with ET = 1 it traps; with ET = 0 each trap it would raise is error mode, which `State.raise` gives. -/
def execRett (rs1 : RegNum) (op : Operand2) (s : State) : Host.Outcome State Fault Refusal :=
  controlTransfer s
    (if s.et then (if s.sup then takeTrap s ttIllegalInstruction else takeTrap s ttPrivilegedInstruction)
     else if !s.sup then takeTrap s ttPrivilegedInstruction
     else if s.windowInvalid s.nextWindow then takeTrap s ttWindowUnderflow
     else if misalignedTarget (effectiveAddress s rs1 op) then takeTrap s ttMemAddressNotAligned
     else .next (s.returnFromTrap (effectiveAddress s rs1 op)))

/-- Ticc (R407): a taken trap has type 0x80 + the software trap number; otherwise the next in sequence. -/
def trapOn (taken : Bool) (rs1 : RegNum) (op : TrapOperand) (s : State) : Host.Outcome State Fault Refusal :=
  if taken then takeTrap s (ttSoftware (trapNumber s rs1 op)) else .next s.advance

/-- TA (R407). -/
def execTa (rs1 : RegNum) (op : TrapOperand) (s : State) : Host.Outcome State Fault Refusal := trapOn true rs1 op s

/-- TN (R407). -/
def execTn (rs1 : RegNum) (op : TrapOperand) (s : State) : Host.Outcome State Fault Refusal := trapOn false rs1 op s

/-- TNE (R407). -/
def execTne (rs1 : RegNum) (op : TrapOperand) (s : State) : Host.Outcome State Fault Refusal :=
  trapOn (testNe s) rs1 op s

/-- TE (R407). -/
def execTe (rs1 : RegNum) (op : TrapOperand) (s : State) : Host.Outcome State Fault Refusal :=
  trapOn (testE s) rs1 op s

/-- TG (R407). -/
def execTg (rs1 : RegNum) (op : TrapOperand) (s : State) : Host.Outcome State Fault Refusal :=
  trapOn (testG s) rs1 op s

/-- TLE (R407). -/
def execTle (rs1 : RegNum) (op : TrapOperand) (s : State) : Host.Outcome State Fault Refusal :=
  trapOn (testLe s) rs1 op s

/-- TGE (R407). -/
def execTge (rs1 : RegNum) (op : TrapOperand) (s : State) : Host.Outcome State Fault Refusal :=
  trapOn (testGe s) rs1 op s

/-- TL (R407). -/
def execTl (rs1 : RegNum) (op : TrapOperand) (s : State) : Host.Outcome State Fault Refusal :=
  trapOn (testL s) rs1 op s

/-- TGU (R407). -/
def execTgu (rs1 : RegNum) (op : TrapOperand) (s : State) : Host.Outcome State Fault Refusal :=
  trapOn (testGu s) rs1 op s

/-- TLEU (R407). -/
def execTleu (rs1 : RegNum) (op : TrapOperand) (s : State) : Host.Outcome State Fault Refusal :=
  trapOn (testLeu s) rs1 op s

/-- TCC (R407). -/
def execTcc (rs1 : RegNum) (op : TrapOperand) (s : State) : Host.Outcome State Fault Refusal :=
  trapOn (testCc s) rs1 op s

/-- TCS (R407). -/
def execTcs (rs1 : RegNum) (op : TrapOperand) (s : State) : Host.Outcome State Fault Refusal :=
  trapOn (testCs s) rs1 op s

/-- TPOS (R407). -/
def execTpos (rs1 : RegNum) (op : TrapOperand) (s : State) : Host.Outcome State Fault Refusal :=
  trapOn (testPos s) rs1 op s

/-- TNEG (R407). -/
def execTneg (rs1 : RegNum) (op : TrapOperand) (s : State) : Host.Outcome State Fault Refusal :=
  trapOn (testNeg s) rs1 op s

/-- TVC (R407). -/
def execTvc (rs1 : RegNum) (op : TrapOperand) (s : State) : Host.Outcome State Fault Refusal :=
  trapOn (testVc s) rs1 op s

/-- TVS (R407). -/
def execTvs (rs1 : RegNum) (op : TrapOperand) (s : State) : Host.Outcome State Fault Refusal :=
  trapOn (testVs s) rs1 op s

/-! ## SAVE and RESTORE -/

/-- The window shift to `w` (R379): refused while AW = 1 (spec/43_awp_wrpsr.md R295), a trap `tt` if WIM marks `w`; the sum
of the sources of the old window goes to r[rd] of the new one. -/
def shiftWindow (w : BitVec 5) (tt : TrapType) (rd rs1 : RegNum) (op : Operand2) (s : State) :
    Host.Outcome State Fault Refusal :=
  if s.cfg.awp && s.aw then .refused .windowShiftInAlternate
  else if s.windowInvalid w then takeTrap s tt
  else .next (({ s with cwp := w }).setReg rd (s.reg rs1 + operand2 s op)).advance

/-- SAVE (R379). -/
def execSave (rd rs1 : RegNum) (op : Operand2) (s : State) : Host.Outcome State Fault Refusal :=
  shiftWindow s.prevWindow ttWindowOverflow rd rs1 op s

/-- RESTORE (R380). -/
def execRestore (rd rs1 : RegNum) (op : Operand2) (s : State) : Host.Outcome State Fault Refusal :=
  shiftWindow s.nextWindow ttWindowUnderflow rd rs1 op s

/-! ## UNIMP and the absent units -/

/-- UNIMP (R492): always illegal_instruction. -/
def execUnimp (_rd : RegNum) (_const22 : BitVec 22) (s : State) : Host.Outcome State Fault Refusal :=
  takeTrap s ttIllegalInstruction

/-- FBfcc (R402). -/
def execFbfcc (_a : Bool) (_cond : BitVec 4) (_disp22 : BitVec 22) (s : State) : Host.Outcome State Fault Refusal :=
  takeTrap s ttFpDisabled

/-- CBccc (R403). -/
def execCbccc (_a : Bool) (_cond : BitVec 4) (_disp22 : BitVec 22) (s : State) : Host.Outcome State Fault Refusal :=
  takeTrap s ttCpDisabled

/-- FPop1 (R493). -/
def execFpop1 (_rd _rs1 : RegNum) (_opf : BitVec 9) (_rs2 : RegNum) (s : State) : Host.Outcome State Fault Refusal :=
  takeTrap s ttFpDisabled

/-- FPop2 (R493). -/
def execFpop2 (_rd _rs1 : RegNum) (_opf : BitVec 9) (_rs2 : RegNum) (s : State) : Host.Outcome State Fault Refusal :=
  takeTrap s ttFpDisabled

/-- CPop1 (R494). -/
def execCpop1 (_rd _rs1 : RegNum) (_opf : BitVec 9) (_rs2 : RegNum) (s : State) : Host.Outcome State Fault Refusal :=
  takeTrap s ttCpDisabled

/-- CPop2 (R494). -/
def execCpop2 (_rd _rs1 : RegNum) (_opf : BitVec 9) (_rs2 : RegNum) (s : State) : Host.Outcome State Fault Refusal :=
  takeTrap s ttCpDisabled

/-- LDF (R465). -/
def execLdf (_rd _rs1 : RegNum) (_op : Operand2) (s : State) : Host.Outcome State Fault Refusal :=
  takeTrap s ttFpDisabled

/-- LDFSR (R466). -/
def execLdfsr (_rd _rs1 : RegNum) (_op : Operand2) (s : State) : Host.Outcome State Fault Refusal :=
  takeTrap s ttFpDisabled

/-- LDDF (R467). -/
def execLddf (_rd _rs1 : RegNum) (_op : Operand2) (s : State) : Host.Outcome State Fault Refusal :=
  takeTrap s ttFpDisabled

/-- STF (R468). -/
def execStf (_rd _rs1 : RegNum) (_op : Operand2) (s : State) : Host.Outcome State Fault Refusal :=
  takeTrap s ttFpDisabled

/-- STFSR (R469). -/
def execStfsr (_rd _rs1 : RegNum) (_op : Operand2) (s : State) : Host.Outcome State Fault Refusal :=
  takeTrap s ttFpDisabled

/-- STDFQ (R470): privileged. -/
def execStdfq (_rd _rs1 : RegNum) (_op : Operand2) (s : State) : Host.Outcome State Fault Refusal :=
  privileged s (takeTrap s ttFpDisabled)

/-- STDF (R471). -/
def execStdf (_rd _rs1 : RegNum) (_op : Operand2) (s : State) : Host.Outcome State Fault Refusal :=
  takeTrap s ttFpDisabled

/-- LDC (R472). -/
def execLdc (_rd _rs1 : RegNum) (_op : Operand2) (s : State) : Host.Outcome State Fault Refusal :=
  takeTrap s ttCpDisabled

/-- LDCSR (R473). -/
def execLdcsr (_rd _rs1 : RegNum) (_op : Operand2) (s : State) : Host.Outcome State Fault Refusal :=
  takeTrap s ttCpDisabled

/-- LDDC (R474). -/
def execLddc (_rd _rs1 : RegNum) (_op : Operand2) (s : State) : Host.Outcome State Fault Refusal :=
  takeTrap s ttCpDisabled

/-- STC (R475). -/
def execStc (_rd _rs1 : RegNum) (_op : Operand2) (s : State) : Host.Outcome State Fault Refusal :=
  takeTrap s ttCpDisabled

/-- STCSR (R476). -/
def execStcsr (_rd _rs1 : RegNum) (_op : Operand2) (s : State) : Host.Outcome State Fault Refusal :=
  takeTrap s ttCpDisabled

/-- STDCQ (R477): privileged. -/
def execStdcq (_rd _rs1 : RegNum) (_op : Operand2) (s : State) : Host.Outcome State Fault Refusal :=
  privileged s (takeTrap s ttCpDisabled)

/-- STDC (R478). -/
def execStdc (_rd _rs1 : RegNum) (_op : Operand2) (s : State) : Host.Outcome State Fault Refusal :=
  takeTrap s ttCpDisabled

end Sys2Proof.Machine
end

