-- ==== Sys2Proof/Machine/Counters.lean ====
section
/-! DEFINITION. The programmable pulse generators, the simple counters and the simple timers as agents of their own
(spec/61_timers_dsu.md R600 to R653). -/

namespace Sys2Proof.Machine

/-! ## Programmable pulse generators (R601 to R605) -/

/-- One down-count of a register of `bits` bits. R605 does not describe a decrement from 0: it gives a free value (U28; DESIGN
CHOICE, log 28). -/
def countDown (bits : Nat) (free n : Word) : Word := (if n = 0#32 then free else n - 1#32) &&& lowMask bits

/-- The start action (R605); a set value of zero is refused (U28). -/
def Ppg.start (p : Ppg) : Except Refusal Ppg :=
  if p.scalerSet = 0#32 ∨ p.counterSet = 0#32 then .error .pulseZero
  else .ok { p with
    scalerCnt := p.scalerSet, counterCnt := p.counterSet
    out := p.shaper.getLsbD 6, sRun := true, cRun := true, afterZero := false }

/-- COUNTER when SCALER reaches zero: the count pulse of the second stage, and bit 5 and bit 1 at its zero (R605); `free` is
what a decrement from 0 gives. -/
def Ppg.counterPulse (c : Config) (free : Word) (p : Ppg) : Ppg :=
  let n := countDown c.counterBits free p.counterCnt
  if n = 0#32 then
    { p with
      out := p.shaper.getLsbD 5, afterZero := true
      counterCnt := if p.shaper.getLsbD 1 then p.counterSet else 0#32
      cRun := p.shaper.getLsbD 1 }
  else { p with counterCnt := n }

/-- A count pulse with Enable at `enable` (R605); `free` is what a decrement of SCALER or of COUNTER from 0 gives. -/
def Ppg.countPulse (c : Config) (free : Word × Word) (p : Ppg) (enable : Bool) : Ppg :=
  if enable && p.sRun then
    let n := countDown c.scalerBits free.1 p.scalerCnt
    if n = 0#32 then
      let q := if p.afterZero then { p with out := p.shaper.getLsbD 4, afterZero := false } else p
      let r := if q.cRun then q.counterPulse c free.2 else q
      if q.cRun && r.afterZero && !p.shaper.getLsbD 0 then { r with scalerCnt := 0#32, sRun := false }
      else { r with scalerCnt := p.scalerSet }
    else { p with scalerCnt := n }
  else p

/-- The value of the word at offset 4, 8, 12 or 16, and of COUNTER.set at offset 0 where it can be read (R601 to R604). -/
def Ppg.load (c : Config) (p : Ppg) (offset : Nat) : Option Word :=
  if offset = 0 then (if c.counterSetReadable then some p.counterSet else none)
  else if offset = 4 then some p.counterCnt
  else if offset = 8 then some p.scalerSet
  else if offset = 12 then some p.scalerCnt
  else some (p.shaper.zeroExtend 32)

/-- A store to the word at an offset (R601 to R605), at once to COUNTER, at the next reload to SCALER; any store to SCALER.cnt
is refused (U29). -/
def Ppg.store (c : Config) (p : Ppg) (offset : Nat) (x : Word) : Except Refusal Ppg :=
  if offset = 0 ∨ offset = 4 then
    .ok { p with counterSet := x &&& lowMask c.counterBits, counterCnt := x &&& lowMask c.counterBits }
  else if offset = 8 then .ok { p with scalerSet := x &&& lowMask c.scalerBits }
  else if offset = 12 then .error .scalerCountStore
  else
    let q := { p with shaper := x.extractLsb' 0 8 &&& 0x73#8 }
    if x.getLsbD 2 then q.start else .ok q

/-! ## Simple counters (R620 to R624) -/

/-- A processor-clock tick of an enabled counter (R623); the strobe lasts one tick (R624; log 29). That a count of 0 in the
equal_zero form goes on to 2^SC_BITS - 1 without a strobe is the model's choice: R623 states that form for a preload of 1 or
more only (DESIGN CHOICE, log 29). -/
def SimpleCounter.count1 (c : Config) (k : SimpleCounter) : SimpleCounter :=
  let top := lowMask c.scBits
  match c.scForm with
  | .overflow =>
    if k.count = top then { k with count := k.preload, strobe := true }
    else { k with count := (k.count + 1#32) &&& top, strobe := false }
  | .equalZero =>
    if (k.count - 1#32) &&& top = 0#32 then { k with count := k.preload, strobe := true }
    else { k with count := (k.count - 1#32) &&& top, strobe := false }
  | .underflow =>
    if k.count = 0#32 then { k with count := k.preload, strobe := true }
    else { k with count := k.count - 1#32, strobe := false }

/-- A processor-clock tick (R622, R623): a disabled counter keeps its count. -/
def SimpleCounter.tick (c : Config) (k : SimpleCounter) (enabled : Bool) : SimpleCounter :=
  if enabled then k.count1 c else { k with strobe := false }

/-! ## Simple timers (R633 to R648) -/

/-- The level of the prescaler counter's output (R637). -/
def Timer.counterOut (t : Timer) : Bool := t.prescale != 1#32

/-- PRSCK, the prescaler output clock (R639). -/
def Timer.prsck (t : Timer) : Bool :=
  if t.psel = 0#32 then t.counterOut else t.cascade.getD (t.psel.toNat - 1) false

/-- The divide-by-2 cascade after its first flip-flop's clock rises: each one toggles at the rise of the one before (R638). -/
def ripple : List Bool → List Bool
  | [] => []
  | b :: rest => if b then false :: rest else true :: ripple rest

/-- One tick of the prescaler's input clock (R637, R638). -/
def Timer.prescalerTick (t : Timer) : Timer :=
  { t with
    prescale := if t.prescale = 0#32 then t.pv else t.prescale - 1#32
    cascade := if t.prescale = 1#32 then ripple t.cascade else t.cascade }

/-- The loads (a) and (b) of the prescaler counter, which clear the cascade (R637, R638). -/
def Timer.loadPrescaler (t : Timer) : Timer :=
  { t with prescale := t.pv, cascade := t.cascade.map fun _ => false }

/-- Load (b): with a timer counter load, when the counter uses PRSCK and the prescaler the timer clock (R637). -/
def Timer.loadWithCounter (u : TimerConfig) (t : Timer) : Timer :=
  if u.hasPrescaler && t.control.clksel == 2#2 && !t.pext then t.loadPrescaler else t

/-- The gate of modes 0 to 3 (R636). -/
def Timer.gateActive (t : Timer) (level : Bool) : Bool :=
  decide (t.control.mode < 4#3) && ((t.control.event == 0#3 && !level) || (t.control.event == 1#3 && level))

/-- Whether a change of the synchronised In Signal is the trigger (R636). -/
def Timer.triggered (t : Timer) (level : Bool) : Bool :=
  let rising := !t.inSample && level
  let falling := t.inSample && !level
  (t.control.event == 2#3 && rising) || (t.control.event == 3#3 && falling)
    || (t.control.event == 4#3 && (rising || falling))

/-- Timeout: CNT has become 0 (R644 to R648). -/
def Timer.timeout (t : Timer) : Timer :=
  if t.control.mode = 0#3 then { t with o := true }
  else if t.control.mode = 2#3 then { t with o := true, src := .latched }
  else { t with o := true, phase := .halted }

/-- The half point of mode 2 (R640, R646). -/
def Timer.halfPoint (t : Timer) : Timer :=
  if t.control.mode = 2#3 ∧ t.cnt.toNat = max 1 (t.reload.toNat / 2) then { t with o := false, src := .latched } else t

/-- One tick of the timer counter's clock with In at `level` (R640). DESIGN CHOICE (log 30): R640 knows CNT = 0 while counting in
modes 0 and 2 only; where a store of 0 to the count register makes it so in modes 1, 3 and 4, the tick reloads as there. -/
def Timer.tick (u : TimerConfig) (t : Timer) (level : Bool) : Timer :=
  if t.phase = .counting ∧ t.gateActive level = false then
    (if t.cnt = 0#32 then { t with cnt := t.reload }.loadWithCounter u
     else if t.cnt = 1#32 then { t with cnt := 0#32 }.timeout
     else { t with cnt := t.cnt - 1#32 }).halfPoint
  else t

/-- A tick of one of the two input clocks: of the prescaler if it uses that clock, and of the timer counter if it uses that
clock or if PRSCK rises (R631, R637, R639). -/
def Timer.clock (u : TimerConfig) (t : Timer) (isExternal level : Bool) : Timer :=
  let p := if u.hasPrescaler && t.pext == isExternal then t.prescalerTick else t
  let ticks := t.control.clksel == (if isExternal then 1#2 else 0#2)
    || (t.control.clksel == 2#2 && !t.prsck && p.prsck)
  if ticks then p.tick u level else p

/-- A count from the reload value: the start of R643, the restart of R645; a reload value of 0 is refused (U31). `output`
drives Out to INVERT. -/
def Timer.startCount (u : TimerConfig) (t : Timer) (output : Bool) : Except Refusal Timer :=
  if t.reload = 0#32 then .error .timerReserved
  else
    let r := { t with cnt := t.reload, phase := .counting }.loadWithCounter u
    .ok (if output then { r with o := false, src := .latched } else r)

/-- The In Signal is synchronised (R631, R636): in mode 4 with CE = 1 a trigger event starts the count (R643, R648). -/
def Timer.sampleIn (u : TimerConfig) (t : Timer) (level : Bool) : Except Refusal Timer :=
  let r := { t with inSample := level }
  if t.control.ce && t.control.mode == 4#3 && t.triggered level then r.startCount u true else .ok r

/-- The Out Signal (R641). -/
def Timer.out (t : Timer) : Bool :=
  (match t.src with
   | .latched => t.o
   | .external => t.external
   | .prescaler => t.prsck) ^^ t.control.invert

/-! ### Registers (R632 to R635) -/

/-- The prescaler control register as a load shows it (R633; log 31). -/
def Timer.pcr (c : Config) (t : Timer) : Word :=
  t.pv ||| (t.psel <<< c.pcrPselLsb) ||| (bit t.pext <<< c.pcrPextBit)

/-- The timer control register as a load shows it, with the two live status bits (R634; log 31). -/
def Timer.tcr (c : Config) (t : Timer) (level : Bool) : Word :=
  (t.control.mode.zeroExtend 32 <<< c.tcrModeLsb) ||| (t.control.event.zeroExtend 32 <<< c.tcrEventLsb)
  ||| (t.control.outsel.zeroExtend 32 <<< c.tcrOutselLsb) ||| (bit t.control.invert <<< c.tcrInvertBit)
  ||| (t.control.clksel.zeroExtend 32 <<< c.tcrClkselLsb) ||| (bit t.control.ce <<< c.tcrCeBit)
  ||| (bit level <<< c.tcrInBit) ||| (bit t.out <<< c.tcrOutBit)

/-- The fields of a word stored to the timer control register (R634). -/
def TimerControl.ofWord (c : Config) (x : Word) : TimerControl where
  mode := x.extractLsb' c.tcrModeLsb 3
  event := x.extractLsb' c.tcrEventLsb 3
  outsel := x.extractLsb' c.tcrOutselLsb 2
  invert := x.getLsbD c.tcrInvertBit
  clksel := x.extractLsb' c.tcrClkselLsb 2
  ce := x.getLsbD c.tcrCeBit

/-- Codes that the source defines and clocks that the unit implements (R634, U31). -/
def TimerControl.legal (u : TimerConfig) (k : TimerControl) : Bool :=
  decide (k.mode ≤ 4#3) && decide (k.event ≤ 4#3)
  && (k.outsel == 0#2 || (k.outsel == 1#2 && u.hasExternalClock) || (k.outsel == 2#2 && u.hasPrescaler))
  && ((k.clksel == 0#2 && u.hasTimerClock) || (k.clksel == 1#2 && u.hasExternalClock)
    || (k.clksel == 2#2 && u.hasPrescaler))

/-- A store to the prescaler control register (R633, R637 (a), (c)); ignored without a prescaler (R632). A rise of PRSCK that
the store itself causes is no tick of the timer counter: the model's choice, R639 does not say (DESIGN CHOICE, log 30). -/
def Timer.storePcr (c : Config) (u : TimerConfig) (t : Timer) (x : Word) : Except Refusal Timer :=
  if !u.hasPrescaler then .ok t
  else
    let r := { t with
      pv := x &&& lowMask c.prescaleCountBits
      psel := (x >>> c.pcrPselLsb) &&& lowMask c.prescaleSelectBits
      pext := x.getLsbD c.pcrPextBit }
    if r.pv = 0#32 ∨ c.cascadeLength < r.psel.toNat ∨ (if r.pext then u.hasExternalClock else u.hasTimerClock) = false then
      .error .timerReserved
    else .ok (if r.pext then r else r.loadPrescaler)

/-- A store to the timer control register stops the timer (R642 (a)). -/
def Timer.storeTcr (c : Config) (u : TimerConfig) (t : Timer) (x : Word) : Except Refusal Timer :=
  let k := TimerControl.ofWord c x
  if k.legal u then
    .ok { t with
      control := k, phase := .stopped
      src := if k.outsel = 1#2 then .external else if k.outsel = 2#2 then .prescaler else .latched }
  else .error .timerReserved

/-- A store to the reload register: with CE = 1 in modes 0 to 3 it starts the count, and Out is driven to INVERT but in
mode 2 (R643). -/
def Timer.storeReload (c : Config) (u : TimerConfig) (t : Timer) (x : Word) : Except Refusal Timer :=
  let r := { t with reload := x &&& lowMask c.stBits }
  if t.control.ce && decide (t.control.mode < 4#3) then r.startCount u (t.control.mode != 2#3) else .ok r

/-- A store to the count register, where the implementation accepts one (R632). DESIGN CHOICE (log 30): a store of 0 while
counting is no timeout, which R640 calls the moment CNT becomes 0; the next tick reloads (`Timer.tick`). -/
def Timer.storeCount (c : Config) (u : TimerConfig) (t : Timer) (x : Word) : Timer :=
  if u.countWritable then { t with cnt := x &&& lowMask c.stBits } else t

/-- The side effects of a load of the count register: in modes 0 and 1 it resets `o` (R635, R641 Table 12), and in mode 1 after
timeout it restarts the timer (R645). -/
def Timer.readCount (u : TimerConfig) (t : Timer) : Except Refusal Timer :=
  if t.control.mode = 0#3 then .ok { t with o := false }
  else if t.control.mode = 1#3 then
    if t.phase = .halted then { t with o := false }.startCount u false else .ok { t with o := false }
  else .ok t

/-- A store to the word at an offset of a timer unit (R632). -/
def Timer.store (c : Config) (u : TimerConfig) (t : Timer) (offset : Nat) (x : Word) : Except Refusal Timer :=
  if offset = 0 then t.storePcr c u x
  else if offset = 4 then t.storeTcr c u x
  else if offset = 8 then t.storeReload c u x
  else .ok (t.storeCount c u x)

/-- A load of the word at an offset of a timer unit with In at `level`: the value, and the unit after it (R632, R635). -/
def Timer.load (c : Config) (u : TimerConfig) (t : Timer) (offset : Nat) (level : Bool) : Except Refusal (Word × Timer) :=
  if offset = 0 then .ok (if u.hasPrescaler then t.pcr c else 0#32, t)
  else if offset = 4 then .ok (t.tcr c level, t)
  else if offset = 8 then .ok (t.reload, t)
  else
    match t.readCount u with
    | .ok r => .ok (t.cnt, r)
    | .error e => .error e

end Sys2Proof.Machine
end

