-- ==== Sys2Proof/Machine/Handlers.lean ====
section
/-! DEFINITION. The input handlers and the interrupt controllers as agents of their own: what a sample tick does, what their
outputs are, and what their words read and store (spec/60_exceptions.md R560 to R597). -/

namespace Sys2Proof.Machine

/-! ## Input handlers (R561 to R567) -/

/-- The set condition of BUF, by WIDTH, before the shift (R562). -/
def Handler.condition (h : Handler) (inp : Bool) : Bool :=
  inp && (if h.width = 0#2 then true
    else if h.width = 1#2 then h.shift.getLsbD 5
    else if h.width = 2#2 then h.shift.extractLsb' 3 3 == 7#3
    else h.shift == 63#6)

/-- A sample tick with IN at `level`: BUF is sticky, INP enters SHIFT at bit 5 (R562). -/
def Handler.sample (h : Handler) (level : Bool) : Handler :=
  let inp := level ^^ h.inv
  { h with buf := h.buf || h.condition inp, shift := BitVec.ofBool inp ++ h.shift.extractLsb' 1 5 }

/-- OUT = BUF and EN (R564). -/
def Handler.out (h : Handler) : Bool := h.buf && h.en

/-- The word of a handler: INV 4, WIDTH 3:2, EN 1, BUF 0 (R566). -/
def Handler.word (h : Handler) : Word :=
  0#27 ++ BitVec.ofBool h.inv ++ h.width ++ BitVec.ofBool h.en ++ BitVec.ofBool h.buf

/-- A store of a handler's word writes its four fields (R566). -/
def Handler.store (h : Handler) (x : Word) : Handler :=
  { h with inv := x.getLsbD 4, width := x.extractLsb' 2 2, en := x.getLsbD 1, buf := x.getLsbD 0 }

/-- The number of the handler in a slot that is not a group word (R567). DESIGN CHOICE (log 43): R571 lets fewer than fifteen
handlers be present and rule R11 gives their count alone; the model fills the slots in order, from slot 1 on, fifteen to a
group. -/
def handlerIndex (slot : Nat) : Nat := 15 * (slot / 16) + slot % 16 - 1

/-- OUT of the handler in a slot; a group word or an absent handler gives 0 (R564, R571). -/
def State.handlerOut (s : State) (slot : Nat) : Bool :=
  if slot % 16 = 0 then false
  else match s.handlers[handlerIndex slot]? with
    | some h => h.out
    | none => false

/-- The OR of the fifteen outputs of group `n` (R573). -/
def State.groupOut (s : State) (n : Nat) : Bool := (List.range 16).any fun j => s.handlerOut (16 * n + j)

/-- The group word: OUT(16n + j) at bit j (R567). -/
def State.groupWord (s : State) (n : Nat) : Word :=
  BitVec.ofNat 32 (((List.range 16).map fun j => if s.handlerOut (16 * n + j) then 2 ^ j else 0).sum)

/-! ## Interrupt request controllers (R581 to R596) -/

/-- The highest of the channels 15 to 1 that satisfies `p`, 0 if none does (R571, R582). -/
def highest (p : Nat → Bool) : BitVec 4 :=
  match [15, 14, 13, 12, 11, 10, 9, 8, 7, 6, 5, 4, 3, 2, 1].find? p with
  | some j => BitVec.ofNat 4 j
  | none => 0#4

/-- The trigger mode of channel `x` (R584). -/
def Iirc.mode (u : Iirc) (x : Nat) : BitVec 2 :=
  if 8 ≤ x then u.mode0.extractLsb' (2 * (x - 8)) 2 else u.mode1.extractLsb' (2 * x) 2

/-- Whether a request is captured on channel `x` with the samples `samples`, newest first (R592). An edge asks for prior samples
that were taken since reset: a line that is high from reset onward has no rising edge (R597; log 41). -/
def Iirc.hit (c : Config) (u : Iirc) (samples : List (BitVec 16)) (x : Nat) : Bool :=
  let level (k : Nat) : Bool := (samples.getD k 0#16).getLsbD x
  let prior (b : Bool) : Bool :=
    decide (c.edgePriorSamples ≤ u.seen) && (List.range c.edgePriorSamples).all fun k => level (k + 1) == b
  if u.mode x = 0#2 then (List.range c.levelSamples).all fun k => level k
  else if u.mode x = 1#2 then (List.range c.levelSamples).all fun k => !level k
  else if u.mode x = 2#2 then level 0 && prior false
  else !level 0 && prior true

/-- The priority encoder (R582). -/
def Iirc.encoded (u : Iirc) : BitVec 4 := highest fun x => u.irqLatch.getLsbD x && !u.mask.getLsbD x

/-- The IRL latch after the IRQ latches are updated (R591). -/
def Iirc.latchLevel (c : Config) (u : Iirc) : BitVec 4 :=
  if c.irlLatchTransparent then u.encoded
  else if u.irlLatch < u.encoded then u.encoded
  else u.irlLatch

/-- The channels whose trigger condition holds, as a word of the IRQ latch (R592). -/
def Iirc.hits (c : Config) (u : Iirc) (samples : List (BitVec 16)) : BitVec 16 :=
  BitVec.ofNat 16 (((List.range 16).map fun x => if x ≠ 0 ∧ u.hit c samples x = true then 2 ^ x else 0).sum)

/-- A sample tick with the request lines at `now`; a reduced controller has no IRL latch (R591, R592, R596). -/
def Iirc.sample (c : Config) (isMain : Bool) (u : Iirc) (now : BitVec 16) : Iirc :=
  let samples := now :: u.hist
  let v := { u with
    irqLatch := u.irqLatch ||| u.hits c samples
    hist := samples.take c.historyLength
    seen := min (u.seen + 1) c.edgePriorSamples }
  if isMain then { v with irlLatch := v.latchLevel c } else v

/-- IRL as the main controller presents it (R582). -/
def Iirc.irl (u : Iirc) : BitVec 4 := if u.mask.getLsbD 0 then 0#4 else u.irlLatch

/-- The output of a reduced controller (R596). -/
def Iirc.output (u : Iirc) : Bool := u.encoded != 0#4 && !u.mask.getLsbD 0

/-- The value a load finds, where the register can be read: Request Sense, and IRL Latch of the main controller (R584,
R585, R590). -/
def Iirc.load (u : Iirc) (isMain : Bool) (offset : Nat) : Option Word :=
  if offset = 0x08 then some (u.irqLatch.zeroExtend 32)
  else if offset = 0x14 && isMain then some (u.irlLatch.zeroExtend 32)
  else none

/-- A store to a register of a controller (R584, R588 to R590): one to Request Sense is ignored (U17). -/
def Iirc.store (u : Iirc) (isMain : Bool) (offset : Nat) (x : Word) : Iirc :=
  if offset = 0x00 then { u with mode0 := x.extractLsb' 0 16 }
  else if offset = 0x04 then { u with mode1 := x.extractLsb' 0 16 &&& 0xFFFC#16 }
  else if offset = 0x0C then { u with irqLatch := u.irqLatch &&& ~~~(x.extractLsb' 0 16) }
  else if offset = 0x10 then { u with mask := x.extractLsb' 0 16 }
  else if offset = 0x14 && isMain && x.getLsbD 4 then { u with irlLatch := 0#4 }
  else u

/-- Whether a controller has a register at an offset (R584, R596; log 33). -/
def iircHas (isMain : Bool) (offset : Nat) : Bool :=
  offset == 0x00 || offset == 0x04 || offset == 0x08 || offset == 0x0C || offset == 0x10 || (offset == 0x14 && isMain)

end Sys2Proof.Machine
end

