-- ==== Sys2Proof/Machine/Mmu.lean ====
section
/-! DEFINITION. Address translation: no MMU, cacheability control, the V8 reference MMU and the V8E reference MMU
(spec/20_memory.md R130 to R158), and the MMU's registers and page descriptors (R134, R148, R149). -/

namespace Sys2Proof

/-! ## What an implementation has -/

/-- How many physical address bits the implementation has (R132, R157; log 6). -/
def Config.physBits (c : Config) : Nat :=
  match c.mmu with
  | .v8ref | .v8eref => c.paBits
  | .none => 32
  | .cacheability => 31

/-- Whether a physical address exists (log 6). -/
def Config.physExists (c : Config) (a : Nat) : Bool := decide (a < 2 ^ c.physBits)

/-- The PPN bits that an implementation has: those above `PA_BITS` are dropped (U18). -/
def Config.dropPpn (c : Config) (w : Word) : Word := w &&& (Machine.lowMask (c.paBits - 4) ||| 0xFF#32)

/-- The context number bits of word 1 that an implementation has (R133; log 19). -/
def Config.dropContext (c : Config) (w : Word) : Word := w &&& ~~~((Machine.lowMask 7 &&& ~~~(Machine.lowMask c.ctxBits)) <<< 3)

/-- The bits of word 1 that the MMU has: the V8 one has no KE and no G (R158). -/
def Config.dropV8e (c : Config) (w : Word) : Word := if c.mmu = .v8eref then w else w &&& ~~~5#32

/-- Whether the MMU is the V8E one, whose tables have KE and global entries and PTP in bits 31:4 (R136, R139, R158). -/
def Config.v8e (c : Config) : Bool := c.mmu == .v8eref

/-- Whether a miss walks the tables: always in the V8 MMU (R158), as `TABLE_WALK` says in the V8E one. -/
def Config.hardwareWalk (c : Config) : Bool := c.mmu == .v8ref || c.tableWalk != .software

end Sys2Proof

namespace Sys2Proof.Machine

/-- The kind of an access (R150). -/
inductive AccessKind where
  | fetch | load | store | atomic
  deriving DecidableEq, Repr

/-- Whether the access writes. -/
def AccessKind.writes : AccessKind → Bool
  | .store | .atomic => true
  | .fetch | .load => false

/-- User or supervisor is decided by the ASI: 0x09 and 0x0B are the supervisor's (R141). -/
def asiSupervisor (asi : Asi) : Bool := asi.getLsbD 0

/-! ## Page table entries and page descriptors (R136, R139, R145, R149) -/

/-- ACC of a page table entry or of word 0 of a descriptor, bits 4:2. -/
def accField (w : Word) : BitVec 3 := w.extractLsb' 2 3

/-- ET of a page table entry, bits 1:0. -/
def etField (w : Word) : BitVec 2 := w.extractLsb' 0 2

/-- OL of word 0 of a descriptor, bits 1:0. -/
def TlbEntry.ol (e : TlbEntry) : BitVec 2 := e.word0.extractLsb' 0 2

/-- PPN, bits 31:8. -/
def ppnField (w : Word) : BitVec 24 := w.extractLsb' 8 24

/-- The table a PTD points to: PTP on PA[35:8] in V8E, bits 31:2 on PA[35:6] in V8 (R136, R158). -/
def tablePointer (v8e : Bool) (w : Word) : Nat :=
  if v8e then (w.extractLsb' 4 28).toNat * 256 else (w.extractLsb' 2 30).toNat * 64

/-- The physical address of `va` in a page of PPN `ppn` mapped at `level`: the offset is 12, 18, 24 or 32 bits (R146). -/
def pageAddress (ppn : BitVec 24) (level : BitVec 2) (va : Word) : PhysAddr :=
  if level = 3#2 then ppn ++ va.extractLsb' 0 12
  else if level = 2#2 then ppn.extractLsb' 6 18 ++ va.extractLsb' 0 18
  else if level = 1#2 then ppn.extractLsb' 12 12 ++ va.extractLsb' 0 24
  else ppn.extractLsb' 20 4 ++ va

/-- The match rule of R146. -/
def TlbEntry.matches (e : TlbEntry) (va : Word) (ctx : BitVec 7) : Bool :=
  e.word1.getLsbD 1
  && (e.word1.getLsbD 0 || e.word1.extractLsb' 3 7 == ctx)
  && (if e.ol = 3#2 then
        e.word1.extractLsb' 12 20 == va.extractLsb' 12 20
        && (!e.word1.getLsbD 2 || e.word1.extractLsb' 10 2 == va.extractLsb' 10 2)
      else if e.ol = 2#2 then e.word1.extractLsb' 18 14 == va.extractLsb' 18 14
      else if e.ol = 1#2 then e.word1.extractLsb' 24 8 == va.extractLsb' 24 8
      else true)

/-- Whether ACC permits a read, a write and a fetch to the supervisor or the user (R141). -/
def accAllows (acc : BitVec 3) (sup : Bool) (kind : AccessKind) : Bool :=
  let readable := acc == 0#3 || acc == 1#3 || acc == 2#3 || acc == 3#3 || acc == 5#3 || (sup && (acc == 6#3 || acc == 7#3))
  let writable := acc == 1#3 || acc == 3#3 || (sup && (acc == 5#3 || acc == 7#3))
  let executable := acc == 2#3 || acc == 3#3 || acc == 4#3 || (sup && (acc == 6#3 || acc == 7#3))
  match kind with
  | .fetch => executable
  | .load => readable
  | .store => writable
  | .atomic => readable && writable

/-! ## Fault status (R151, R152) -/

/-- AT: the access type. An atomic is recorded as a store (log 19). -/
def accessType (asi : Asi) (kind : AccessKind) : BitVec 3 :=
  BitVec.ofBool kind.writes ++ BitVec.ofBool (asi == 0x08#8 || asi == 0x09#8) ++ BitVec.ofBool (asiSupervisor asi)

/-- Records a fault in FSR, and the address of a data access in FAR (R152). -/
def State.recordFault (s : State) (va : Word) (asi : Asi) (kind : AccessKind) (ft : BitVec 3) (level : BitVec 2) : State :=
  { s with
    fsr := 0#22 ++ level ++ accessType asi kind ++ ft ++ BitVec.ofBool (kind != .fetch)
      ++ BitVec.ofBool (s.fsr.extractLsb' 2 3 != 0#3)
    far := if kind = .fetch then s.far else va }

/-- A fault of the MMU: recorded, then the access exception of its kind (R152). -/
def mmuFault {α : Type} (s : State) (va : Word) (asi : Asi) (kind : AccessKind) (ft : BitVec 3) (level : BitVec 2) : Access α :=
  .trap (if kind = .fetch then ttInstructionAccessException else ttDataAccessException) (s.recordFault va asi kind ft level)

/-- A miss under software table walk: FAR holds the address of a data access (R151). -/
def mmuMiss {α : Type} (s : State) (va : Word) (kind : AccessKind) : Access α :=
  if kind = .fetch then .trap ttInstructionAccessMmuMiss s else .trap ttDataAccessMmuMiss { s with far := va }

/-! ## The table walk (R135 to R137) -/

/-- How a table walk ends: at a page table entry (its address, the entry, its level, KE of the level-2 PTD), in a fault of
type `ft` at a level, or at a table that is not aligned to its size. -/
inductive Walk where
  | entry (addr : Nat) (pte : Word) (level : BitVec 2) (ke : Bool)
  | fault (ft : BitVec 3) (level : BitVec 2)
  | misaligned
  deriving DecidableEq, Repr

/-- The size in bytes of the table read at a level (R134, R137). -/
def tableSize (c : Config) (level : BitVec 2) (ke : Bool) : Nat :=
  if level = 0#2 then max 64 (4 * 2 ^ c.ctxBits)
  else if level = 1#2 then 1024
  else if level = 2#2 then 256
  else if ke then 1024 else 256

/-- The index into the table read at a level (R135). -/
def tableIndex (ctx : BitVec 7) (va : Word) (level : BitVec 2) (ke : Bool) : Nat :=
  if level = 0#2 then ctx.toNat
  else if level = 1#2 then (va.extractLsb' 24 8).toNat
  else if level = 2#2 then (va.extractLsb' 18 6).toNat
  else if ke then (va.extractLsb' 10 8).toNat else (va.extractLsb' 12 6).toNat

/-- The walk from the table at `table`, read at `level`, with `fuel` levels left. An entry beyond the physical memory is an
error reading a table (R152); a PTD at level 3 is the fault of `Config.ptdFault` (log 22). -/
def walkFrom (s : State) (va : Word) (v8e : Bool) : Nat → BitVec 2 → Nat → Bool → Walk
  | 0, level, _, _ => .fault 4#3 level
  | fuel + 1, level, table, ke =>
    if table % tableSize s.cfg level ke ≠ 0 then .misaligned
    else
      let addr := table + 4 * tableIndex s.ctx va level ke
      if !s.cfg.physExists (addr + 3) then .fault 4#3 level
      else
        let e := s.wordAt addr
        if etField e = 0#2 then .fault 1#3 level
        else if etField e = 1#2 then
          if level = 3#2 then .fault s.cfg.ptdFault level
          else walkFrom s va v8e fuel (level + 1#2) (tablePointer v8e e) (v8e && level == 2#2 && e.getLsbD 2)
        else if etField e = 2#2 || v8e then .entry addr e level ke
        else .fault 4#3 level

/-- The walk for `va` in the current context, from the context table (R134, R135). -/
def walk (s : State) (va : Word) (v8e : Bool) : Walk := walkFrom s va v8e 4 0#2 (s.ctp.toNat * 64) false

/-- Sets R, and M for a write, in a page table entry or in word 0 of a descriptor (R140). -/
def setReferenced (w : Word) (writes : Bool) : Word := w ||| 0x20#32 ||| (if writes then 0x40#32 else 0#32)

/-- The page table entry in memory with R and M set (R140). -/
def State.touchPte (s : State) (addr : Nat) (writes : Bool) : State :=
  { s with mem := writeWord s.mem addr (setReferenced (s.wordAt addr) writes) }

/-! ## The TLB (R145 to R147, R158) -/

/-- The descriptor that a hardware walk makes of an entry it found (R147; the V8 MMU holds its entries alike, log 18). KE of a
page at level 0 to 2, for which no level-2 PTD was read, is 0: R147 says only "PTD - Level 2 (last read)" (DESIGN CHOICE,
log 42). -/
def entryOf (s : State) (va pte : Word) (level : BitVec 2) (ke : Bool) : TlbEntry where
  word0 := s.cfg.dropPpn (pte.extractLsb' 2 30 ++ level)
  word1 := va.extractLsb' 10 22 ++ s.ctx ++ BitVec.ofBool ke ++ 1#1 ++ pte.extractLsb' 0 1
  lb := false

/-- The numbers of the descriptors that are not locked. -/
def State.unlocked (s : State) : List Nat :=
  (List.range s.tlb.length).filter fun k => match s.tlb[k]? with
    | some e => !e.lb
    | none => false

/-- Enters a descriptor in place of an unlocked one that the model leaves open (a free value); nothing is entered if every
one is locked (R147, U23). -/
def State.enterTlb (s : State) (e : TlbEntry) : State :=
  match s.unlocked with
  | [] => s
  | first :: rest =>
    let (w, t) := s.drawFree
    { t with tlb := t.tlb.set ((first :: rest).getD (w.toNat % (first :: rest).length) first) e }

/-- The descriptors that match, by number. -/
def State.tlbHits (s : State) (va : Word) : List Nat :=
  (List.range s.tlb.length).filter fun k => match s.tlb[k]? with
    | some e => e.matches va s.ctx
    | none => false

/-- Sets R and M of the page table entry in memory of a page that the TLB already holds, under a hardware walk (R140; log
20). -/
def State.touchHit (s : State) (va : Word) (e : TlbEntry) (writes : Bool) : State :=
  if s.cfg.hardwareWalk && setReferenced e.word0 writes != e.word0 then
    match walk s va s.cfg.v8e with
    | .entry addr _ _ _ => s.touchPte addr writes
    | .fault _ _ => s
    | .misaligned => s
  else s

/-- The end of a translation through an entry: the permission check, then R and M (R141, R150, R152). `update` sets them. -/
def usePage (s : State) (va : Word) (asi : Asi) (kind : AccessKind) (word0 : Word) (level : BitVec 2)
    (update : State → State) : Access PhysAddr :=
  if accAllows (accField word0) (asiSupervisor asi) kind then
    .ok (pageAddress (ppnField (s.cfg.dropPpn word0)) level va) (update s)
  else if !asiSupervisor asi && accAllows (accField word0) true kind then mmuFault s va asi kind 3#3 level
  else mmuFault s va asi kind 2#3 level

/-- Translation by an MMU that is enabled (R150; R158 for the V8 one, whose TLB software sees only through what it holds). -/
def translateMmu (s : State) (va : Word) (asi : Asi) (kind : AccessKind) : Access PhysAddr :=
  match s.tlbHits va with
  | [] =>
    if s.cfg.hardwareWalk then
      match walk s va s.cfg.v8e with
      | .misaligned => .refused .misalignedTable
      | .fault ft level => mmuFault s va asi kind ft level
      | .entry addr pte level ke =>
        usePage (s.enterTlb (entryOf s va pte level ke)) va asi kind pte level fun t =>
          { t.touchPte addr kind.writes with
            tlb := t.tlb.map fun e => if e.matches va t.ctx then { e with word0 := setReferenced e.word0 kind.writes } else e }
    else mmuMiss s va kind
  | [k] =>
    match s.tlb[k]? with
    | some e =>
      usePage s va asi kind e.word0 e.ol fun t =>
        { t.touchHit va e kind.writes with
          tlb := t.tlb.set k { e with word0 := setReferenced e.word0 kind.writes } }
    | none => mmuMiss s va kind
  | _ => .refused .multipleTlbMatch

/-- The physical address of an access in ASI 0x08 to 0x0B (R130, R150, R155, R157, R158). -/
def translate (s : State) (va : Word) (asi : Asi) (kind : AccessKind) : Access PhysAddr :=
  match s.cfg.mmu with
  | .none => .ok (va.zeroExtend 36) s
  | .cacheability => .ok ((va.extractLsb' 0 31).zeroExtend 36) s
  | .v8ref | .v8eref => if s.mmuEnable then translateMmu s va asi kind else .ok (va.zeroExtend 36) s

/-- The physical address an access that exists reaches, else the fault (log 6). -/
def locate (s : State) (va : Word) (asi : Asi) (kind : AccessKind) : Access Nat :=
  (translate s va asi kind).bind fun pa t =>
    if t.cfg.physExists pa.toNat then .ok pa.toNat t else .fault .noPhysicalMemory

/-- Where an address lies without an access to it: no fault is recorded and no state changes; no place where no page is found
or where more than one descriptor matches. FLUSH uses it (spec/48_v8_base_system.md R491; log 24). -/
def probe (s : State) (va : Word) : Option Nat :=
  match s.cfg.mmu with
  | .none => some va.toNat
  | .cacheability => some (va.extractLsb' 0 31).toNat
  | .v8ref | .v8eref =>
    if s.mmuEnable then
      match s.tlbHits va with
      | [] =>
        if s.cfg.hardwareWalk then
          match walk s va s.cfg.v8e with
          | .entry _ pte level _ => some (pageAddress (ppnField (s.cfg.dropPpn pte)) level va).toNat
          | .fault _ _ => none
          | .misaligned => none
        else none
      | [k] =>
        match s.tlb[k]? with
        | some e => some (pageAddress (ppnField (s.cfg.dropPpn e.word0)) e.ol va).toNat
        | none => none
      | _ => none
    else some va.toNat

/-! ## Flushing and probing the V8 MMU (R158)

R158 names the two operations of ASI 0x03 and gives neither their types nor their values; both are those of the V8 reference
MMU (PRESUMED, log 18). -/

/-- The type of a flush or a probe: 0 page, 1 segment, 2 region, 3 context, 4 entire. -/
def flushType (ea : Word) : BitVec 4 := ea.extractLsb' 8 4

/-- Whether a flush removes a held entry: the entries of a page, segment or region or of everything in the context, or all. -/
def TlbEntry.flushedBy (e : TlbEntry) (ea : Word) (ctx : BitVec 7) : Bool :=
  let k := flushType ea
  k == 4#4
  || (e.word1.extractLsb' 3 7 == ctx
    && ((k == 0#4 && e.ol == 3#2 && e.word1.extractLsb' 12 20 == ea.extractLsb' 12 20)
      || (k == 1#4 && decide (2#2 ≤ e.ol) && e.word1.extractLsb' 18 14 == ea.extractLsb' 18 14)
      || (k == 2#4 && decide (1#2 ≤ e.ol) && e.word1.extractLsb' 24 8 == ea.extractLsb' 24 8)
      || k == 3#4))

/-- A flush: the entries it removes are no longer valid. -/
def State.flushTlb (s : State) (ea : Word) : State :=
  { s with tlb := s.tlb.map fun e => if e.flushedBy ea s.ctx then { e with word1 := e.word1 &&& ~~~2#32 } else e }

/-- The word a probe finds from the table at `table`, read at `level`, with `fuel` levels left: the entry of level `stop`, or
the page table entry at any level if there is none; 0 where the walk ends elsewhere; nothing at a misaligned table. -/
def probeFrom (s : State) (va : Word) (stop : Option (BitVec 2)) : Nat → BitVec 2 → Nat → Option Word
  | 0, _, _ => some 0#32
  | fuel + 1, level, table =>
    if table % tableSize s.cfg level false ≠ 0 then none
    else
      let addr := table + 4 * tableIndex s.ctx va level false
      if !s.cfg.physExists (addr + 3) then some 0#32
      else
        let e := s.wordAt addr
        if etField e = 3#2 || (level == 3#2 && etField e == 1#2) then some 0#32
        else if stop = some level then some e
        else if etField e = 1#2 then probeFrom s va stop fuel (level + 1#2) (tablePointer false e)
        else if etField e = 2#2 && stop.isNone then some e
        else some 0#32

/-- The level that a probe of a type asks for. -/
def probeLevel (k : BitVec 4) : Option (BitVec 2) := if k = 4#4 then none else some (3#2 - k.extractLsb' 0 2)

/-- The page table entry that a descriptor of the V8 MMU holds; a valid one has ET = 2 (R158). -/
def TlbEntry.pte (e : TlbEntry) : Word := e.word0.extractLsb' 2 30 ++ 2#2

/-- What a probe for the entry of level `stop`, or at any level, finds in a held entry of its address: the entry itself, 0 where
the asked level lies below it, nothing where it lies above. -/
def TlbEntry.probed (e : TlbEntry) : Option (BitVec 2) → Option Word
  | none => some e.pte
  | some level => if level = e.ol then some e.pte else if e.ol < level then some 0#32 else none

/-- What a probe finds in the tables. -/
def probeTables (s : State) (ea : Word) : Access Word :=
  match probeFrom s ea (probeLevel (flushType ea)) 4 0#2 (s.ctp.toNat * 64) with
  | some w => .ok w s
  | none => .refused .misalignedTable

/-- A probe: of the TLB, and of the tables where the TLB does not hold what is asked for (R158; log 18). A reserved type gives a
free value. -/
def readProbe (s : State) (ea : Word) : Access Word :=
  if 4#4 < flushType ea then .ok s.drawFree.1 s.drawFree.2
  else match s.tlbHits ea with
    | [] => probeTables s ea
    | [k] =>
      match s.tlb[k]?.bind fun e => e.probed (probeLevel (flushType ea)) with
      | some w => .ok w s
      | none => probeTables s ea
    | _ => .refused .multipleTlbMatch

/-! ## The MMU's registers and page descriptors (R134, R148, R149) -/

/-- A load of an MMU register, by address bits 11:8: reading FSR clears it (R152). -/
def readMmuRegister (s : State) (ea : Word) : Access Word :=
  let n := ea.extractLsb' 8 4
  if n = 0#4 then
    .ok ((s.cfg.mmuImpl ++ s.cfg.mmuVer ++ 0#22 ++ BitVec.ofBool s.mmuNoFault ++ BitVec.ofBool s.mmuEnable)) s
  else if n = 1#4 then .ok (s.ctp ++ 0#2) s
  else if n = 2#4 then .ok (s.ctx.zeroExtend 32) s
  else if n = 3#4 then .ok s.fsr { s with fsr := 0#32 }
  else if n = 4#4 then .ok s.far s
  else .refused .unassignedSpace

/-- A store to an MMU register; FSR and FAR ignore it (log 21). -/
def writeMmuRegister (s : State) (ea x : Word) : Access Unit :=
  let n := ea.extractLsb' 8 4
  if n = 0#4 then .ok () { s with mmuEnable := x.getLsbD 0, mmuNoFault := x.getLsbD 1 }
  else if n = 1#4 then .ok () { s with ctp := x.extractLsb' 2 30 }
  else if n = 2#4 then .ok () { s with ctx := (x &&& lowMask s.cfg.ctxBits).extractLsb' 0 7 }
  else if n = 3#4 || n = 4#4 then .ok () s
  else .refused .unassignedSpace

/-- Word `k` of page descriptor `n` (R149). -/
def readDescriptor (s : State) (n k : Nat) : Access Word :=
  match s.tlb[n]? with
  | none => .refused .unassignedSpace
  | some e =>
    .ok (match k with
      | 0 => e.word0
      | 1 => e.word1
      | 2 => bit e.lb <<< s.cfg.tlbLbBit
      | _ => 0#32) s

/-- A store to word `k` of page descriptor `n`: bits that do not exist are dropped (R149, U18, U24). -/
def writeDescriptor (s : State) (n k : Nat) (x : Word) : Access Unit :=
  match s.tlb[n]? with
  | none => .refused .unassignedSpace
  | some e =>
    .ok () { s with
      tlb := s.tlb.set n (match k with
        | 0 => { e with word0 := s.cfg.dropPpn x }
        | 1 => { e with word1 := s.cfg.dropContext x }
        | 2 => { e with lb := x.getLsbD s.cfg.tlbLbBit }
        | _ => e) }

end Sys2Proof.Machine
end

