-- ==== Sys2Proof/Machine/Peripherals.lean ====
section
/-! DEFINITION. The peripherals in the machine: the wiring between them, the interrupt request level, and their registers in
the alternate address spaces (spec/20_memory.md R105, R122; spec/60_exceptions.md R564 to R596; spec/61_timers_dsu.md R601 to
R653). -/

namespace Sys2Proof.Machine

/-! ## Wiring (log 32) -/

/-- Whether unit `u` is the main controller, which has the IRL latch (spec/60_exceptions.md R580, R596). -/
def isMainController (c : Config) (u : Nat) : Bool := u == 0 && c.intc == .iirc

/-- The level of an output. -/
def State.sourceLevel (s : State) : Source → Bool
  | .handler slot => s.handlerOut slot
  | .group n => s.groupOut n
  | .pulse n => match s.ppgs[n]? with
    | some p => p.out
    | none => false
  | .strobe i => match s.counters[i]? with
    | some k => k.strobe
    | none => false
  | .timer n => match s.timers[n]? with
    | some t => t.out
    | none => false
  | .controller u => match s.iircs[u]? with
    | some v => !isMainController s.cfg u && v.output
    | none => false

/-- The level of an input: that of the outputs wired to it, ORed, or else the level the host drives. -/
def State.sinkLevel (s : State) (k : Sink) (host : Bool) : Bool :=
  let sources := (s.cfg.wires.filter fun w => w.1 == k).map fun w => w.2
  if sources.isEmpty then host else sources.any s.sourceLevel

/-- The In Signal of timer `n` (spec/61_timers_dsu.md R636). -/
def State.timerLevel (s : State) (n : Nat) (t : Timer) : Bool := s.sinkLevel (.timerIn n) t.inLine

/-- The request lines of controller `u` (spec/60_exceptions.md R580). -/
def State.requestLines (s : State) (u : Nat) (v : Iirc) : BitVec 16 :=
  BitVec.ofNat 16 (((List.range 16).map fun x =>
    if x ≠ 0 ∧ s.sinkLevel (.request u x) (v.lines.getLsbD x) = true then 2 ^ x else 0).sum)

/-! ## The interrupt request level (spec/60_exceptions.md R520, R525, R571, R573, R582) -/

/-- IRL as the interrupt circuit presents it. -/
def State.irl (s : State) : BitVec 4 :=
  match s.cfg.intc with
  | .none => s.irlHost
  | .basic k => highest fun j => if k = 1 then s.handlerOut j else (s.cfg.firstStage.getD (j - 1) []).any s.handlerOut
  | .iirc => match s.iircs[0]? with
    | some v => v.irl
    | none => 0#4

/-- The interrupt condition (R525). -/
def State.interruptCondition (s : State) : Bool :=
  s.et && s.irl != 0#4 && (s.irl == 15#4 || decide (s.pil < s.irl))

/-! ## Registers in the alternate spaces -/

/-- A word register of the MMU or of a peripheral. -/
inductive Register where
  /-- The MMU register that address bits 11:8 select (spec/20_memory.md R134). -/
  | mmu (ea : Word)
  /-- A flush or a probe of the V8 MMU (spec/20_memory.md R158; log 18). -/
  | flushProbe (ea : Word)
  /-- Word `k` of page descriptor `n` (spec/20_memory.md R148). -/
  | descriptor (n k : Nat)
  /-- The word of the handler in a slot (spec/60_exceptions.md R566). -/
  | handler (slot : Nat)
  /-- A group word (spec/60_exceptions.md R567). -/
  | group (n : Nat)
  /-- A register of a controller (spec/60_exceptions.md R584). -/
  | iirc (u offset : Nat)
  /-- A word of a pulse generator (spec/61_timers_dsu.md R601). -/
  | ppg (n offset : Nat)
  /-- A simple counter's count, or its preload (spec/61_timers_dsu.md R621). -/
  | counter (i : Nat) (preload : Bool)
  /-- The system control register (spec/61_timers_dsu.md R622). -/
  | sysctl
  /-- A word of a timer unit (spec/61_timers_dsu.md R632). -/
  | timer (n offset : Nat)
  deriving DecidableEq, Repr

/-- The number and the offset of the first area that holds byte address `a`, of areas given by base and size. -/
def findArea (a : Nat) : List (Nat × Nat) → Option (Nat × Nat)
  | [] => none
  | (b, size) :: rest =>
    if b ≤ a ∧ a < b + size then some (0, a - b)
    else match findArea a rest with
      | some (n, k) => some (n + 1, k)
      | none => none

/-- The MMU's registers and descriptors (spec/20_memory.md R134, R148, R158). -/
def mmuRegisterAt (c : Config) (asi : Asi) (ea : Word) : Option Register :=
  match c.mmu with
  | .none | .cacheability => none
  | .v8ref => if asi = 0x04#8 then some (.mmu ea) else if asi = 0x03#8 then some (.flushProbe ea) else none
  | .v8eref =>
    if asi = 0x04#8 then some (.mmu ea)
    else if asi = c.tlbAsi then
      match findArea ea.toNat [(c.tlbBase, 4096)] with
      | some (_, k) => if k / 16 < c.nTlb then some (.descriptor (k / 16) (k % 16 / 4)) else none
      | none => none
    else none

/-- The input handlers' page (spec/60_exceptions.md R566, R567). -/
def handlerRegisterAt (c : Config) (asi : Asi) (ea : Word) : Option Register :=
  if asi = c.handlerAsi then
    match findArea ea.toNat [(0x1000, 4096)] with
    | some (_, k) =>
      let slot := k / 4
      if slot % 16 = 0 then (if 15 * (slot / 16) < c.nHandlers then some (.group (slot / 16)) else none)
      else if handlerIndex slot < c.nHandlers then some (.handler slot) else none
    | none => none
  else none

/-- How many bytes the registers of controller `u` take: six words, or five of a reduced one (spec/60_exceptions.md R584, R596;
log 33). -/
def iircSize (c : Config) (u : Nat) : Nat := if isMainController c u then 0x18 else 0x14

/-- The interrupt controllers, in ASI 1 (spec/60_exceptions.md R584). -/
def iircRegisterAt (c : Config) (asi : Asi) (ea : Word) : Option Register :=
  if asi = 0x01#8 then
    match findArea ea.toNat (c.iircBases.mapIdx fun u b => (b, iircSize c u)) with
    | some (u, k) => if iircHas (isMainController c u) (k / 4 * 4) then some (.iirc u (k / 4 * 4)) else none
    | none => none
  else none

/-- The pulse generators (spec/61_timers_dsu.md R601). -/
def ppgRegisterAt (c : Config) (asi : Asi) (ea : Word) : Option Register :=
  if asi = c.ppgAsi then
    match findArea ea.toNat [(c.ppgBase, 4096)] with
    | some (_, k) => if k / 32 < c.nPpg ∧ k % 32 < 20 then some (.ppg (k / 32) (k % 32 / 4 * 4)) else none
    | none => none
  else none

/-- The simple counters and their system control register (spec/61_timers_dsu.md R621, R622). -/
def counterRegisterAt (c : Config) (asi : Asi) (ea : Word) : Option Register :=
  if asi = c.scAsi then
    match findArea ea.toNat (c.simpleCounters.map fun k => (k.addr, 8)) with
    | some (i, k) => some (.counter i (4 ≤ k))
    | none =>
      if c.simpleCounters ≠ [] ∧ c.sysctlAddr ≤ ea.toNat ∧ ea.toNat < c.sysctlAddr + 4 then some .sysctl else none
  else none

/-- The timer units (spec/61_timers_dsu.md R632). -/
def timerRegisterAt (c : Config) (asi : Asi) (ea : Word) : Option Register :=
  if asi = c.stAsi then
    match findArea ea.toNat (c.timers.map fun t => (t.addr, 16)) with
    | some (n, k) => some (.timer n (k / 4 * 4))
    | none => none
  else none

/-- The register whose word holds an address of an address space, if one is assigned there (spec/20_memory.md R104, R105;
log 15 says the order). -/
def registerAt (c : Config) (asi : Asi) (ea : Word) : Option Register :=
  (mmuRegisterAt c asi ea).or <| (handlerRegisterAt c asi ea).or <| (iircRegisterAt c asi ea).or <|
    (ppgRegisterAt c asi ea).or <| (counterRegisterAt c asi ea).or <| timerRegisterAt c asi ea

/-- The result of a peripheral's action. -/
def Access.ofExcept {α β : Type} (x : Except Refusal α) (k : α → Access β) : Access β :=
  match x with
  | .ok a => k a
  | .error r => .refused r

/-- A load of a value the source leaves open (log 7). -/
def loadFree (s : State) : Access Word := .ok s.drawFree.1 s.drawFree.2

/-- A load that the implementation may not provide gives a free value (U17, U30). -/
def loadOrFree (s : State) : Option Word → Access Word
  | some w => .ok w s
  | none => loadFree s

/-- A load of a timer's word (spec/61_timers_dsu.md R635). -/
def loadTimer (s : State) (n offset : Nat) : Access Word :=
  match s.timers[n]?, s.cfg.timers[n]? with
  | some t, some u => .ofExcept (t.load s.cfg u offset (s.timerLevel n t)) fun r =>
      .ok r.1 { s with timers := s.timers.set n r.2 }
  | _, _ => .refused .unassignedSpace

/-- A store to a timer's word (spec/61_timers_dsu.md R632). -/
def storeTimer (s : State) (n offset : Nat) (x : Word) : Access Unit :=
  match s.timers[n]?, s.cfg.timers[n]? with
  | some t, some u => .ofExcept (t.store s.cfg u offset x) fun r => .ok () { s with timers := s.timers.set n r }
  | _, _ => .refused .unassignedSpace

/-- A load of a word register (spec/20_memory.md R121, R122, R166). -/
def readRegister (s : State) : Register → Access Word
  | .mmu ea => readMmuRegister s ea
  | .flushProbe ea => readProbe s ea
  | .descriptor n k => readDescriptor s n k
  | .handler slot => match s.handlers[handlerIndex slot]? with
    | some h => .ok h.word s
    | none => .refused .unassignedSpace
  | .group n => .ok (s.groupWord n) s
  | .iirc u offset => match s.iircs[u]? with
    | some v => loadOrFree s (v.load (isMainController s.cfg u) offset)
    | none => .refused .unassignedSpace
  | .ppg n offset => match s.ppgs[n]? with
    | some p => loadOrFree s (p.load s.cfg offset)
    | none => .refused .unassignedSpace
  | .counter i preload => match s.counters[i]?, s.cfg.simpleCounters[i]? with
    | some k, some u => loadOrFree s (if u.readable then some (if preload then k.preload else k.count) else none)
    | _, _ => .refused .unassignedSpace
  | .sysctl => .ok s.sysctl s
  | .timer n offset => loadTimer s n offset

/-- The enable bits of the system control register (spec/61_timers_dsu.md R622). -/
def enableMask (c : Config) : Word := (c.simpleCounters.map fun k => 1#32 <<< k.enableBit).foldl (· ||| ·) 0#32

/-- A store to a word register (spec/20_memory.md R121, R122, R166). -/
def writeRegister (s : State) (r : Register) (x : Word) : Access Unit :=
  match r with
  | .mmu ea => writeMmuRegister s ea x
  | .flushProbe ea => .ok () (s.flushTlb ea)
  | .descriptor n k => writeDescriptor s n k x
  | .handler slot => match s.handlers[handlerIndex slot]? with
    | some h => .ok () { s with handlers := s.handlers.set (handlerIndex slot) (h.store x) }
    | none => .refused .unassignedSpace
  | .group _ => .ok () s
  | .iirc u offset => match s.iircs[u]? with
    | some v => .ok () { s with iircs := s.iircs.set u (v.store (isMainController s.cfg u) offset x) }
    | none => .refused .unassignedSpace
  | .ppg n offset => match s.ppgs[n]? with
    | some p => .ofExcept (p.store s.cfg offset x) fun q => .ok () { s with ppgs := s.ppgs.set n q }
    | none => .refused .unassignedSpace
  | .counter i preload => match s.counters[i]? with
    | some k =>
      let v := x &&& lowMask s.cfg.scBits
      .ok () { s with counters := s.counters.set i (if preload then { k with preload := v } else { k with count := v }) }
    | none => .refused .unassignedSpace
  | .sysctl => .ok () { s with sysctl := x &&& enableMask s.cfg }
  | .timer n offset => storeTimer s n offset x

end Sys2Proof.Machine
end

