-- ==== Sys2Proof/Machine/Bus.lean ====
section
/-! DEFINITION. A data access: where it goes, and the reads and writes of each width (spec/20_memory.md R100 to R123;
spec/47_v8_base_memory.md R450; spec/44_alternate_space.md R311). -/

namespace Sys2Proof.Machine

/-- Where a data access goes. -/
inductive Place where
  | memory (pa : Nat)
  | register (r : Register)
  deriving DecidableEq, Repr

/-- The address space of an ordinary data access (spec/20_memory.md R102). -/
def dataAsi (s : State) : Asi := if s.sup then 0x0B#8 else 0x0A#8

/-- Whether an address space is instruction or data memory (spec/20_memory.md R102). -/
def isMemoryAsi (asi : Asi) : Bool := asi == 0x08#8 || asi == 0x09#8 || asi == 0x0A#8 || asi == 0x0B#8

/-- Whether an implementation has the MMU bypass, and an address space is one of it (spec/20_memory.md R101, R155). -/
def isBypassAsi (c : Config) (asi : Asi) : Bool :=
  (c.mmu == .v8ref || c.mmu == .v8eref) && asi.extractLsb' 4 4 == 2#4

/-- A memory place, unless the host has injected a bus error (spec/60_exceptions.md R502; log 26). -/
def memoryPlace (s : State) (pa : Nat) : Access Place :=
  if s.inject = some .data then .trap ttDataAccessError { s with inject := none } else .ok (.memory pa) s

/-- Where an access to `ea` of address space `asi` goes, after translation (spec/20_memory.md R103, R104, R150). -/
def resolve (s : State) (asi : Asi) (ea : Word) (kind : AccessKind) : Access Place :=
  if isMemoryAsi asi then (locate s ea asi kind).bind fun pa t => memoryPlace t pa
  else if isBypassAsi s.cfg asi then
    let pa := (asi.extractLsb' 0 4 ++ ea).toNat
    if s.cfg.physExists pa then memoryPlace s pa else .fault .noPhysicalMemory
  else match registerAt s.cfg asi ea with
    | some r => .ok (.register r) s
    | none => .refused .unassignedSpace

/-- A place that has to be memory: no other access than that of a word to a register is described (U16; log 16). -/
def asMemory (x : Access Place) : Access Nat :=
  x.bind fun p s => match p with
    | .memory pa => .ok pa s
    | .register _ => .refused .registerWidth

/-- Reads a byte. -/
def loadByte (s : State) (asi : Asi) (ea : Word) : Access Byte :=
  (asMemory (resolve s asi ea .load)).bind fun pa t => .ok (t.byteAt pa) t

/-- Reads a halfword. -/
def loadHalf (s : State) (asi : Asi) (ea : Word) : Access (BitVec 16) :=
  (asMemory (resolve s asi ea .load)).bind fun pa t => .ok (t.halfAt pa) t

/-- Reads a word. -/
def loadWord (s : State) (asi : Asi) (ea : Word) : Access Word :=
  (resolve s asi ea .load).bind fun p t => match p with
    | .memory pa => .ok (t.wordAt pa) t
    | .register r => readRegister t r

/-- Reads the words at `ea` and `ea` + 4; of registers only PCR and TCR of a timer unit, the lower address first (R120, R123,
U16). -/
def loadDouble (s : State) (asi : Asi) (ea : Word) : Access (Word × Word) :=
  (resolve s asi ea .load).bind fun p t => match p with
    | .memory pa => .ok (t.wordAt pa, t.wordAt (pa + 4)) t
    | .register (.timer n 0) =>
      (readRegister t (.timer n 0)).bind fun x u => (readRegister u (.timer n 4)).bind fun y v => .ok (x, y) v
    | .register _ => .refused .registerWidth

/-- Writes a byte. -/
def putByte (s : State) (asi : Asi) (ea : Word) (x : Byte) : Access Unit :=
  (asMemory (resolve s asi ea .store)).bind fun pa t => .ok () (t.storeByte pa x)

/-- Writes a halfword. -/
def putHalf (s : State) (asi : Asi) (ea : Word) (x : BitVec 16) : Access Unit :=
  (asMemory (resolve s asi ea .store)).bind fun pa t => .ok () (t.storeHalf pa x)

/-- Writes a word. -/
def putWord (s : State) (asi : Asi) (ea x : Word) : Access Unit :=
  (resolve s asi ea .store).bind fun p t => match p with
    | .memory pa => .ok () (t.storeWord pa x)
    | .register r => writeRegister t r x

/-- Writes `x` at `ea` and `y` at `ea` + 4 (R120, R123, U16). -/
def putDouble (s : State) (asi : Asi) (ea x y : Word) : Access Unit :=
  (resolve s asi ea .store).bind fun p t => match p with
    | .memory pa => .ok () ((t.storeWord pa x).storeWord (pa + 4) y)
    | .register (.timer n 0) =>
      (writeRegister t (.timer n 0) x).bind fun _ u => writeRegister u (.timer n 4) y
    | .register _ => .refused .registerWidth

/-- Reads a byte and sets it to 0xFF, with nothing between (spec/47_v8_base_memory.md R461). -/
def testAndSet (s : State) (asi : Asi) (ea : Word) : Access Byte :=
  (asMemory (resolve s asi ea .atomic)).bind fun pa t => .ok (t.byteAt pa) (t.storeByte pa 0xFF#8)

/-- Reads a word and replaces it, with nothing between (spec/47_v8_base_memory.md R462). -/
def exchange (s : State) (asi : Asi) (ea x : Word) : Access Word :=
  (asMemory (resolve s asi ea .atomic)).bind fun pa t => .ok (t.wordAt pa) (t.storeWord pa x)

end Sys2Proof.Machine
end

