-- ==== Sys2Proof/Machine/LoadStore.lean ====
section
/-! DEFINITION. The loads, the stores and the atomic instructions, ordinary and alternate-space
(spec/47_v8_base_memory.md R450 to R462; spec/44_alternate_space.md R311 to R325). -/

namespace Sys2Proof.Machine

/-! ## The shared sequences (R450) -/

/-- An address that is a multiple of `n`, else mem_address_not_aligned before any translation (R450;
spec/20_memory.md R115). -/
def whenAligned (s : State) (ea : Word) (n : Nat) (k : Host.Outcome State Fault Refusal) : Host.Outcome State Fault Refusal :=
  if ea.toNat % n = 0 then k else takeTrap s ttMemAddressNotAligned

/-- An even register number, else illegal_instruction (R456, U27). -/
def whenEven (s : State) (rd : RegNum) (k : Host.Outcome State Fault Refusal) : Host.Outcome State Fault Refusal :=
  if rd.getLsbD 0 then takeTrap s ttIllegalInstruction else k

/-- The privilege check of the alternate-space instructions (spec/44_alternate_space.md R310, R311). -/
def whenAsiAllowed (s : State) (asi : Asi) (k : Host.Outcome State Fault Refusal) : Host.Outcome State Fault Refusal :=
  if !s.sup && (!s.cfg.npasi || decide (asi < 0x80#8)) then takeTrap s ttPrivilegedInstruction else k

/-- Load a signed byte. -/
def loadSignedByte (s : State) (rd : RegNum) (asi : Asi) (ea : Word) : Host.Outcome State Fault Refusal :=
  (loadByte s asi ea).outcome fun b t => (t.setReg rd (b.signExtend 32)).advance

/-- Load an unsigned byte. -/
def loadUnsignedByte (s : State) (rd : RegNum) (asi : Asi) (ea : Word) : Host.Outcome State Fault Refusal :=
  (loadByte s asi ea).outcome fun b t => (t.setReg rd (b.zeroExtend 32)).advance

/-- Load a signed halfword. -/
def loadSignedHalf (s : State) (rd : RegNum) (asi : Asi) (ea : Word) : Host.Outcome State Fault Refusal :=
  whenAligned s ea 2 ((loadHalf s asi ea).outcome fun h t => (t.setReg rd (h.signExtend 32)).advance)

/-- Load an unsigned halfword. -/
def loadUnsignedHalf (s : State) (rd : RegNum) (asi : Asi) (ea : Word) : Host.Outcome State Fault Refusal :=
  whenAligned s ea 2 ((loadHalf s asi ea).outcome fun h t => (t.setReg rd (h.zeroExtend 32)).advance)

/-- Load a word. -/
def loadToRegister (s : State) (rd : RegNum) (asi : Asi) (ea : Word) : Host.Outcome State Fault Refusal :=
  whenAligned s ea 4 ((loadWord s asi ea).outcome fun w t => (t.setReg rd w).advance)

/-- Load a doubleword: the word at `ea` to the even register, the next one to the odd (R456). -/
def loadToPair (s : State) (rd : RegNum) (asi : Asi) (ea : Word) : Host.Outcome State Fault Refusal :=
  whenEven s rd (whenAligned s ea 8
    ((loadDouble s asi ea).outcome fun d t => ((t.setReg rd d.1).setReg (rd + 1#5) d.2).advance))

/-- Store the low byte of r[rd]. -/
def storeLowByte (s : State) (rd : RegNum) (asi : Asi) (ea : Word) : Host.Outcome State Fault Refusal :=
  (putByte s asi ea ((s.reg rd).extractLsb' 0 8)).outcome fun _ t => t.advance

/-- Store the low halfword of r[rd]. -/
def storeLowHalf (s : State) (rd : RegNum) (asi : Asi) (ea : Word) : Host.Outcome State Fault Refusal :=
  whenAligned s ea 2 ((putHalf s asi ea ((s.reg rd).extractLsb' 0 16)).outcome fun _ t => t.advance)

/-- Store r[rd]. -/
def storeRegister (s : State) (rd : RegNum) (asi : Asi) (ea : Word) : Host.Outcome State Fault Refusal :=
  whenAligned s ea 4 ((putWord s asi ea (s.reg rd)).outcome fun _ t => t.advance)

/-- Store a doubleword: the even register at `ea`, the odd one at `ea` + 4 (R460). -/
def storePair (s : State) (rd : RegNum) (asi : Asi) (ea : Word) : Host.Outcome State Fault Refusal :=
  whenEven s rd (whenAligned s ea 8
    ((putDouble s asi ea (s.reg rd) (s.reg (rd + 1#5))).outcome fun _ t => t.advance))

/-- The atomic load and store of a byte (R461). -/
def loadAndSet (s : State) (rd : RegNum) (asi : Asi) (ea : Word) : Host.Outcome State Fault Refusal :=
  (testAndSet s asi ea).outcome fun b t => (t.setReg rd (b.zeroExtend 32)).advance

/-- The atomic exchange of a word with the old r[rd] (R462). -/
def swapRegister (s : State) (rd : RegNum) (asi : Asi) (ea : Word) : Host.Outcome State Fault Refusal :=
  whenAligned s ea 4 ((exchange s asi ea (s.reg rd)).outcome fun w t => (t.setReg rd w).advance)

/-! ## The ordinary instructions -/

/-- LDSB (R451). -/
def execLdsb (rd rs1 : RegNum) (op : Operand2) (s : State) : Host.Outcome State Fault Refusal :=
  loadSignedByte s rd (dataAsi s) (effectiveAddress s rs1 op)

/-- LDSH (R452). -/
def execLdsh (rd rs1 : RegNum) (op : Operand2) (s : State) : Host.Outcome State Fault Refusal :=
  loadSignedHalf s rd (dataAsi s) (effectiveAddress s rs1 op)

/-- LDUB (R453). -/
def execLdub (rd rs1 : RegNum) (op : Operand2) (s : State) : Host.Outcome State Fault Refusal :=
  loadUnsignedByte s rd (dataAsi s) (effectiveAddress s rs1 op)

/-- LDUH (R454). -/
def execLduh (rd rs1 : RegNum) (op : Operand2) (s : State) : Host.Outcome State Fault Refusal :=
  loadUnsignedHalf s rd (dataAsi s) (effectiveAddress s rs1 op)

/-- LD (R455). -/
def execLd (rd rs1 : RegNum) (op : Operand2) (s : State) : Host.Outcome State Fault Refusal :=
  loadToRegister s rd (dataAsi s) (effectiveAddress s rs1 op)

/-- LDD (R456). -/
def execLdd (rd rs1 : RegNum) (op : Operand2) (s : State) : Host.Outcome State Fault Refusal :=
  loadToPair s rd (dataAsi s) (effectiveAddress s rs1 op)

/-- STB (R457). -/
def execStb (rd rs1 : RegNum) (op : Operand2) (s : State) : Host.Outcome State Fault Refusal :=
  storeLowByte s rd (dataAsi s) (effectiveAddress s rs1 op)

/-- STH (R458). -/
def execSth (rd rs1 : RegNum) (op : Operand2) (s : State) : Host.Outcome State Fault Refusal :=
  storeLowHalf s rd (dataAsi s) (effectiveAddress s rs1 op)

/-- ST (R459). -/
def execSt (rd rs1 : RegNum) (op : Operand2) (s : State) : Host.Outcome State Fault Refusal :=
  storeRegister s rd (dataAsi s) (effectiveAddress s rs1 op)

/-- STD (R460). -/
def execStd (rd rs1 : RegNum) (op : Operand2) (s : State) : Host.Outcome State Fault Refusal :=
  storePair s rd (dataAsi s) (effectiveAddress s rs1 op)

/-- LDSTUB (R461). -/
def execLdstub (rd rs1 : RegNum) (op : Operand2) (s : State) : Host.Outcome State Fault Refusal :=
  loadAndSet s rd (dataAsi s) (effectiveAddress s rs1 op)

/-- SWAP (R462). -/
def execSwap (rd rs1 : RegNum) (op : Operand2) (s : State) : Host.Outcome State Fault Refusal :=
  swapRegister s rd (dataAsi s) (effectiveAddress s rs1 op)

/-! ## The alternate-space instructions -/

/-- LDSBA (R312). -/
def execLdsba (rd rs1 : RegNum) (asi : Asi) (rs2 : RegNum) (s : State) : Host.Outcome State Fault Refusal :=
  whenAsiAllowed s asi (loadSignedByte s rd asi (alternateAddress s rs1 rs2))

/-- LDSHA (R313). -/
def execLdsha (rd rs1 : RegNum) (asi : Asi) (rs2 : RegNum) (s : State) : Host.Outcome State Fault Refusal :=
  whenAsiAllowed s asi (loadSignedHalf s rd asi (alternateAddress s rs1 rs2))

/-- LDUBA (R314). -/
def execLduba (rd rs1 : RegNum) (asi : Asi) (rs2 : RegNum) (s : State) : Host.Outcome State Fault Refusal :=
  whenAsiAllowed s asi (loadUnsignedByte s rd asi (alternateAddress s rs1 rs2))

/-- LDUHA (R315). -/
def execLduha (rd rs1 : RegNum) (asi : Asi) (rs2 : RegNum) (s : State) : Host.Outcome State Fault Refusal :=
  whenAsiAllowed s asi (loadUnsignedHalf s rd asi (alternateAddress s rs1 rs2))

/-- LDA (R316). -/
def execLda (rd rs1 : RegNum) (asi : Asi) (rs2 : RegNum) (s : State) : Host.Outcome State Fault Refusal :=
  whenAsiAllowed s asi (loadToRegister s rd asi (alternateAddress s rs1 rs2))

/-- LDDA (R317). -/
def execLdda (rd rs1 : RegNum) (asi : Asi) (rs2 : RegNum) (s : State) : Host.Outcome State Fault Refusal :=
  whenAsiAllowed s asi (loadToPair s rd asi (alternateAddress s rs1 rs2))

/-- STBA (R318). -/
def execStba (rd rs1 : RegNum) (asi : Asi) (rs2 : RegNum) (s : State) : Host.Outcome State Fault Refusal :=
  whenAsiAllowed s asi (storeLowByte s rd asi (alternateAddress s rs1 rs2))

/-- STHA (R319). -/
def execStha (rd rs1 : RegNum) (asi : Asi) (rs2 : RegNum) (s : State) : Host.Outcome State Fault Refusal :=
  whenAsiAllowed s asi (storeLowHalf s rd asi (alternateAddress s rs1 rs2))

/-- STA (R320). -/
def execSta (rd rs1 : RegNum) (asi : Asi) (rs2 : RegNum) (s : State) : Host.Outcome State Fault Refusal :=
  whenAsiAllowed s asi (storeRegister s rd asi (alternateAddress s rs1 rs2))

/-- STDA (R321). -/
def execStda (rd rs1 : RegNum) (asi : Asi) (rs2 : RegNum) (s : State) : Host.Outcome State Fault Refusal :=
  whenAsiAllowed s asi (storePair s rd asi (alternateAddress s rs1 rs2))

/-- LDSTUBA (R324). -/
def execLdstuba (rd rs1 : RegNum) (asi : Asi) (rs2 : RegNum) (s : State) : Host.Outcome State Fault Refusal :=
  whenAsiAllowed s asi (loadAndSet s rd asi (alternateAddress s rs1 rs2))

/-- SWAPA (R325). -/
def execSwapa (rd rs1 : RegNum) (asi : Asi) (rs2 : RegNum) (s : State) : Host.Outcome State Fault Refusal :=
  whenAsiAllowed s asi (swapRegister s rd asi (alternateAddress s rs1 rs2))

end Sys2Proof.Machine
end

