-- ==== Sys2Proof/Machine/Multiply.lean ====
section
/-! DEFINITION. MULScc, the multiplies and the divides (spec/45_v8_base_alu.md R370 to R378), the divide step
(spec/40_divide_step.md R250), SCAN (spec/41_scan.md R260) and the multiply-accumulate instructions (spec/42_mac.md R270 to
R277). -/

namespace Sys2Proof.Machine

/-- MULScc (R370): all right-hand sides use the values before the instruction. -/
def execMulscc (rd rs1 : RegNum) (op : Operand2) (s : State) : Host.Outcome State Fault Refusal :=
  let a := s.reg rs1
  let op1 := BitVec.ofBool (s.n ^^ s.v) ++ a.extractLsb' 1 31
  let op2 := if s.y.getLsbD 0 then operand2 s op else 0#32
  let res := op1 + op2
  writeResultCc { s with y := BitVec.ofBool (a.getLsbD 0) ++ s.y.extractLsb' 1 31 } rd res (addFlags op1 op2 res)

/-! ## Multiply (R371 to R374; spec/42_mac.md R277) -/

/-- The exact unsigned product. -/
def unsignedProduct (a b : Word) : BitVec 64 := BitVec.ofNat 64 (a.toNat * b.toNat)

/-- The exact signed product. -/
def signedProduct (a b : Word) : BitVec 64 := BitVec.ofInt 64 (a.toInt * b.toInt)

/-- Y, and with the MAC option the accumulator words, after a multiply whose result has the given sign (spec/42_mac.md
R277). -/
def State.setProduct (s : State) (prod : BitVec 64) (negative : Bool) : State :=
  { s with
    y := prod.extractLsb' 32 32
    accLo := if s.cfg.mac then prod.extractLsb' 0 32 else s.accLo
    accHi := if s.cfg.mac then (if negative then lowMask s.cfg.accHiWidth else 0#32) else s.accHi }

/-- UMUL (R371). -/
def execUmul (rd rs1 : RegNum) (op : Operand2) (s : State) : Host.Outcome State Fault Refusal :=
  let prod := unsignedProduct (s.reg rs1) (operand2 s op)
  writeResult (s.setProduct prod false) rd (prod.extractLsb' 0 32)

/-- UMULcc (R372): N and Z look at the low word. -/
def execUmulcc (rd rs1 : RegNum) (op : Operand2) (s : State) : Host.Outcome State Fault Refusal :=
  let prod := unsignedProduct (s.reg rs1) (operand2 s op)
  writeResultCc (s.setProduct prod false) rd (prod.extractLsb' 0 32) (resultFlags (prod.extractLsb' 0 32) false)

/-- SMUL (R373). -/
def execSmul (rd rs1 : RegNum) (op : Operand2) (s : State) : Host.Outcome State Fault Refusal :=
  let prod := signedProduct (s.reg rs1) (operand2 s op)
  writeResult (s.setProduct prod prod.msb) rd (prod.extractLsb' 0 32)

/-- SMULcc (R374). -/
def execSmulcc (rd rs1 : RegNum) (op : Operand2) (s : State) : Host.Outcome State Fault Refusal :=
  let prod := signedProduct (s.reg rs1) (operand2 s op)
  writeResultCc (s.setProduct prod prod.msb) rd (prod.extractLsb' 0 32) (resultFlags (prod.extractLsb' 0 32) false)

/-! ## Divide (R375 to R378) -/

/-- The unsigned quotient of Y::a by a nonzero divisor, saturated, and whether it overflowed (R375). -/
def unsignedQuotient (y a divisor : Word) : Word × Bool :=
  let q := (y ++ a).toNat / divisor.toNat
  if 2 ^ 32 ≤ q then (0xFFFFFFFF#32, true) else (BitVec.ofNat 32 q, false)

/-- The signed quotient of Y::a by a nonzero divisor, rounded toward zero, saturated, and whether it overflowed (R377). -/
def signedQuotient (y a divisor : Word) : Word × Bool :=
  let q := (y ++ a).toInt.tdiv divisor.toInt
  if 2 ^ 31 ≤ q then (0x7FFFFFFF#32, true)
  else if q < -(2 ^ 31) then (0x80000000#32, true)
  else (BitVec.ofInt 32 q, false)

/-- UDIV (R375): a zero divisor traps before any write; Y keeps its value. -/
def execUdiv (rd rs1 : RegNum) (op : Operand2) (s : State) : Host.Outcome State Fault Refusal :=
  if operand2 s op = 0#32 then takeTrap s ttDivisionByZero
  else writeResult s rd (unsignedQuotient s.y (s.reg rs1) (operand2 s op)).1

/-- UDIVcc (R376). -/
def execUdivcc (rd rs1 : RegNum) (op : Operand2) (s : State) : Host.Outcome State Fault Refusal :=
  if operand2 s op = 0#32 then takeTrap s ttDivisionByZero
  else
    let q := unsignedQuotient s.y (s.reg rs1) (operand2 s op)
    writeResultCc s rd q.1 (resultFlags q.1 q.2)

/-- SDIV (R377). -/
def execSdiv (rd rs1 : RegNum) (op : Operand2) (s : State) : Host.Outcome State Fault Refusal :=
  if operand2 s op = 0#32 then takeTrap s ttDivisionByZero
  else writeResult s rd (signedQuotient s.y (s.reg rs1) (operand2 s op)).1

/-- SDIVcc (R378). -/
def execSdivcc (rd rs1 : RegNum) (op : Operand2) (s : State) : Host.Outcome State Fault Refusal :=
  if operand2 s op = 0#32 then takeTrap s ttDivisionByZero
  else
    let q := signedQuotient s.y (s.reg rs1) (operand2 s op)
    writeResultCc s rd q.1 (resultFlags q.1 q.2)

/-! ## Divide step (spec/40_divide_step.md R250) -/

/-- The 33-bit sum of the divide step: the remainder minus the divisor as the adder does it, or plus the divisor (R250
step 4, R252). -/
def divideStepSum (trueSign : Bool) (rem divisor : Word) : BitVec 33 :=
  if trueSign then rem.zeroExtend 33 + divisor.zeroExtend 33
  else rem.zeroExtend 33 + (~~~divisor).zeroExtend 33 + 1#33

/-- The new true sign (R250 step 6). -/
def divideStepSign (trueSign y31 c0 : Bool) : Bool := (trueSign && !y31) || (!c0 && (trueSign || !y31))

/-- DIVScc (R250): all reads before all writes. -/
def execDivscc (rd rs1 : RegNum) (op : Operand2) (s : State) : Host.Outcome State Fault Refusal :=
  let trueSign := s.n ^^ s.v
  let a := s.reg rs1
  let sum := divideStepSum trueSign (s.y.extractLsb' 0 31 ++ BitVec.ofBool a.msb) (operand2 s op)
  let alu := sum.extractLsb' 0 32
  let ts := divideStepSign trueSign s.y.msb sum.msb
  writeResultCc { s with y := alu } rd (a.extractLsb' 0 31 ++ BitVec.ofBool (!ts))
    { n := alu.msb, z := alu == 0#32 && trueSign == s.y.msb, v := ts ^^ alu.msb, c := !ts }

/-! ## Scan (spec/41_scan.md R260 to R262) -/

/-- The mask: r[rs2] shifted right by one, sign-extended, or the sign-extended immediate itself (R261). -/
def scanMask (s : State) : Operand2 → Word
  | .reg rs2 => (s.reg rs2).sshiftRight 1
  | .imm simm13 => simm13.signExtend 32

/-- The number of the first 1 bit from the most significant bit on, if any (R260). -/
def firstOne (x : Word) : Option Nat := (List.range 32).find? fun k => x.getLsbD (31 - k)

/-- The result of SCAN: a bit number, or the implementation's value for no bit (R262). -/
def scanResult (c : Config) (x : Word) : Word :=
  match firstOne x with
  | some k => BitVec.ofNat 32 k
  | none => c.scanNomatch

/-- SCAN (R260). -/
def execScan (rd rs1 : RegNum) (op : Operand2) (s : State) : Host.Outcome State Fault Refusal :=
  writeResult s rd (scanResult s.cfg (s.reg rs1 ^^^ scanMask s op))

/-! ## Multiply-accumulate (spec/42_mac.md R270 to R276) -/

/-- W, the width of the accumulator (R270). -/
def accWidth (c : Config) : Nat := 64 + c.accHiWidth

/-- The accumulator HI :: Y :: LO as an unsigned number (spec/10_state.md R59). -/
def State.accNat (s : State) : Nat :=
  (s.accHi &&& lowMask s.cfg.accHiWidth).toNat * 2 ^ 64 + s.y.toNat * 2 ^ 32 + s.accLo.toNat

/-- A `width`-bit number read as two's complement. -/
def signedOf (width x : Nat) : Int := if 2 ^ (width - 1) ≤ x then (x : Int) - 2 ^ width else x

/-- R: the accumulated result on one bit more than the accumulator has (R270). -/
def macResult (s : State) (isSigned : Bool) (a b : Word) : Nat :=
  let sum : Int :=
    if isSigned then a.toInt * b.toInt + signedOf (accWidth s.cfg) s.accNat
    else (a.toNat * b.toNat + s.accNat : Nat)
  (sum % 2 ^ (accWidth s.cfg + 1)).toNat

/-- V: the extra bit differs from the accumulator's most significant bit, in a signed operation (R275). -/
def macOverflow (c : Config) (isSigned : Bool) (r : Nat) : Bool :=
  isSigned && r.testBit (accWidth c) != r.testBit (accWidth c - 1)

/-- C: the extra bit, in an unsigned operation (R275). -/
def macCarry (c : Config) (isSigned : Bool) (r : Nat) : Bool := !isSigned && r.testBit (accWidth c)

/-- The accumulator and the accrued flags after a MAC (R270, R276). -/
def State.setAccumulator (s : State) (isSigned : Bool) (r : Nat) : State :=
  { s with
    accHi := BitVec.ofNat 32 (r / 2 ^ 64) &&& lowMask s.cfg.accHiWidth
    y := BitVec.ofNat 32 (r / 2 ^ 32)
    accLo := BitVec.ofNat 32 r
    accOverflow := s.accOverflow || macOverflow s.cfg isSigned r
    accCarry := s.accCarry || macCarry s.cfg isSigned r }

/-- The template MAC(signed, write_cc = false) (R270). -/
def mac (isSigned : Bool) (rd rs1 : RegNum) (op : Operand2) (s : State) : Host.Outcome State Fault Refusal :=
  let r := macResult s isSigned (s.reg rs1) (operand2 s op)
  writeResult (s.setAccumulator isSigned r) rd (BitVec.ofNat 32 r)

/-- The template MAC(signed, write_cc = true) (R270, R275). -/
def macCc (isSigned : Bool) (rd rs1 : RegNum) (op : Operand2) (s : State) : Host.Outcome State Fault Refusal :=
  let r := macResult s isSigned (s.reg rs1) (operand2 s op)
  let low := BitVec.ofNat 32 r
  writeResultCc (s.setAccumulator isSigned r) rd low
    { n := low.msb, z := low == 0#32, v := macOverflow s.cfg isSigned r, c := macCarry s.cfg isSigned r }

/-- UMAC (R271). -/
def execUmac (rd rs1 : RegNum) (op : Operand2) (s : State) : Host.Outcome State Fault Refusal := mac false rd rs1 op s

/-- UMACcc (R272). -/
def execUmaccc (rd rs1 : RegNum) (op : Operand2) (s : State) : Host.Outcome State Fault Refusal := macCc false rd rs1 op s

/-- SMAC (R273). -/
def execSmac (rd rs1 : RegNum) (op : Operand2) (s : State) : Host.Outcome State Fault Refusal := mac true rd rs1 op s

/-- SMACcc (R274). -/
def execSmaccc (rd rs1 : RegNum) (op : Operand2) (s : State) : Host.Outcome State Fault Refusal := macCc true rd rs1 op s

end Sys2Proof.Machine
end

