-- ==== Sys2Proof/Machine/StateRegs.lean ====
section
/-! DEFINITION. The state-register reads and writes, STBAR and FLUSH (spec/48_v8_base_system.md R480 to R491;
spec/43_awp_wrpsr.md R293, R300 to R303, R306). -/

namespace Sys2Proof.Machine

/-- RDY (R480). -/
def execRdy (rd : RegNum) (s : State) : Host.Outcome State Fault Refusal := writeResult s rd s.y

/-- STBAR (R482): with in-order memory it orders nothing further. -/
def execStbar (s : State) : Host.Outcome State Fault Refusal := .next s.advance

/-- RDASR (R481): an ASR that the implementation does not have is illegal. -/
def execRdasr (rd rs1 : RegNum) (s : State) : Host.Outcome State Fault Refusal :=
  if s.cfg.svt && rs1 == 17#5 then privileged s (writeResult s rd (bit s.svt))
  else if s.cfg.mac && rs1 == s.cfg.asrAccHi then writeResult s rd (s.accHi &&& lowMask s.cfg.accHiWidth)
  else if s.cfg.mac && rs1 == s.cfg.asrAccLo then writeResult s rd s.accLo
  else if s.cfg.mac && rs1 == s.cfg.asrAccFlags then
    writeResult s rd (0#30 ++ BitVec.ofBool s.accOverflow ++ BitVec.ofBool s.accCarry)
  else if s.cfg.awp && rs1 == s.cfg.asrAwp then
    privileged s (writeResult s rd (s.awpReg.zeroExtend 32 <<< s.cfg.awpLsb))
  else takeTrap s ttIllegalInstruction

/-- RDPSR (R483). -/
def execRdpsr (rd : RegNum) (s : State) : Host.Outcome State Fault Refusal := privileged s (writeResult s rd s.psr)

/-- RDWIM (R484): bits NWINDOWS to 31 read 0. -/
def execRdwim (rd : RegNum) (s : State) : Host.Outcome State Fault Refusal :=
  privileged s (writeResult s rd (s.wim &&& lowMask s.cfg.nwindows))

/-- RDTBR (R485). -/
def execRdtbr (rd : RegNum) (s : State) : Host.Outcome State Fault Refusal := privileged s (writeResult s rd s.tbr)

/-- WRY (R486). -/
def execWry (rs1 : RegNum) (op : Operand2) (s : State) : Host.Outcome State Fault Refusal :=
  .next { s with y := writeValue s rs1 op }.advance

/-- The field of a written value that holds AWP (spec/43_awp_wrpsr.md R293). -/
def awpField (c : Config) (x : Word) : BitVec 5 := x.extractLsb' c.awpLsb 5

/-- A write of AWP: a value that is no window is refused (spec/43_awp_wrpsr.md R293; log 13). -/
def writeAwp (s : State) (f : BitVec 5) : Host.Outcome State Fault Refusal :=
  if f.toNat < s.cfg.nwindows then .next { s with awpReg := f }.advance else .refused .awpRange

/-- WRASR (R487). -/
def execWrasr (rd rs1 : RegNum) (op : Operand2) (s : State) : Host.Outcome State Fault Refusal :=
  let x := writeValue s rs1 op
  if s.cfg.svt && rd == 17#5 then privileged s (.next { s with svt := x.getLsbD 0 }.advance)
  else if s.cfg.mac && rd == s.cfg.asrAccHi then .next { s with accHi := x &&& lowMask s.cfg.accHiWidth }.advance
  else if s.cfg.mac && rd == s.cfg.asrAccLo then .next { s with accLo := x }.advance
  else if s.cfg.mac && rd == s.cfg.asrAccFlags then
    .next { s with accOverflow := x.getLsbD 1, accCarry := x.getLsbD 0 }.advance
  else if s.cfg.awp && rd == s.cfg.asrAwp then privileged s (writeAwp s (awpField s.cfg x))
  else takeTrap s ttIllegalInstruction

/-- A full write of PSR (spec/43_awp_wrpsr.md R301): a CWP that is no window is illegal and writes nothing. -/
def writePsr (s : State) (x : Word) : Host.Outcome State Fault Refusal :=
  if s.cfg.nwindows ≤ (x.extractLsb' 0 5).toNat then takeTrap s ttIllegalInstruction
  else .next (s.setPsr x).advance

/-- WRPSR (spec/43_awp_wrpsr.md R300 to R303): `rd` selects the fields; an unassigned selector is refused after the privilege
check (log 12). -/
def execWrpsr (rd rs1 : RegNum) (op : Operand2) (s : State) : Host.Outcome State Fault Refusal :=
  privileged s
    (if rd = 0#5 then writePsr s (writeValue s rs1 op)
     else if s.cfg.pwrpsr && rd == s.cfg.wrpsrEtRd then .next { s with et := (writeValue s rs1 op).getLsbD 5 }.advance
     else .refused .wrpsrSelector)

/-- WRWIM (R489): bits of absent windows are ignored. -/
def execWrwim (rs1 : RegNum) (op : Operand2) (s : State) : Host.Outcome State Fault Refusal :=
  privileged s (.next { s with wim := writeValue s rs1 op &&& lowMask s.cfg.nwindows }.advance)

/-- WRTBR (R490): TBA only. -/
def execWrtbr (rs1 : RegNum) (op : Operand2) (s : State) : Host.Outcome State Fault Refusal :=
  privileged s (.next { s with tba := (writeValue s rs1 op).extractLsb' 12 20 }.advance)

/-- The marks left after the doubleword at a physical address is flushed (R491; log 24). -/
def flushMarks (stale : List Nat) (pa : Nat) : List Nat := stale.filter fun a => !decide (a / 8 = pa / 8)

/-- Records that the doubleword at `ea` is flushed (R491; log 24): at the place it translates to, or by its address where it
translates to none. -/
def State.flushWord (s : State) (ea : Word) : State :=
  match probe s ea with
  | some pa => { s with stale := flushMarks s.stale pa }
  | none => { s with flushed := (s.stale.map fun a => (a, ea.toNat / 8)) ++ s.flushed }

/-- FLUSH (R491): no alignment check, no MMU fault; it only records the flush. -/
def execFlush (rs1 : RegNum) (op : Operand2) (s : State) : Host.Outcome State Fault Refusal :=
  .next (s.flushWord (effectiveAddress s rs1 op)).advance

end Sys2Proof.Machine
end

