-- ==== Sys2Proof/Machine/Dispatch.lean ====
section
/-! DEFINITION. One arm per instruction. -/

namespace Sys2Proof.Machine

def exec (i : Instr) (s : State) : Host.Outcome State Fault Refusal :=
  match i with
  | .call disp30 => Sys2Proof.Machine.execCall disp30 s
  | .unimp rd const22 => Sys2Proof.Machine.execUnimp rd const22 s
  | .sethi rd imm22 => Sys2Proof.Machine.execSethi rd imm22 s
  | .ba a disp22 => Sys2Proof.Machine.execBa a disp22 s
  | .bn a disp22 => Sys2Proof.Machine.execBn a disp22 s
  | .bne a disp22 => Sys2Proof.Machine.execBne a disp22 s
  | .be a disp22 => Sys2Proof.Machine.execBe a disp22 s
  | .bg a disp22 => Sys2Proof.Machine.execBg a disp22 s
  | .ble a disp22 => Sys2Proof.Machine.execBle a disp22 s
  | .bge a disp22 => Sys2Proof.Machine.execBge a disp22 s
  | .bl a disp22 => Sys2Proof.Machine.execBl a disp22 s
  | .bgu a disp22 => Sys2Proof.Machine.execBgu a disp22 s
  | .bleu a disp22 => Sys2Proof.Machine.execBleu a disp22 s
  | .bcc a disp22 => Sys2Proof.Machine.execBcc a disp22 s
  | .bcs a disp22 => Sys2Proof.Machine.execBcs a disp22 s
  | .bpos a disp22 => Sys2Proof.Machine.execBpos a disp22 s
  | .bneg a disp22 => Sys2Proof.Machine.execBneg a disp22 s
  | .bvc a disp22 => Sys2Proof.Machine.execBvc a disp22 s
  | .bvs a disp22 => Sys2Proof.Machine.execBvs a disp22 s
  | .fbfcc a cond disp22 => Sys2Proof.Machine.execFbfcc a cond disp22 s
  | .cbccc a cond disp22 => Sys2Proof.Machine.execCbccc a cond disp22 s
  | .add rd rs1 op => Sys2Proof.Machine.execAdd rd rs1 op s
  | .addcc rd rs1 op => Sys2Proof.Machine.execAddcc rd rs1 op s
  | .addx rd rs1 op => Sys2Proof.Machine.execAddx rd rs1 op s
  | .addxcc rd rs1 op => Sys2Proof.Machine.execAddxcc rd rs1 op s
  | .sub rd rs1 op => Sys2Proof.Machine.execSub rd rs1 op s
  | .subcc rd rs1 op => Sys2Proof.Machine.execSubcc rd rs1 op s
  | .subx rd rs1 op => Sys2Proof.Machine.execSubx rd rs1 op s
  | .subxcc rd rs1 op => Sys2Proof.Machine.execSubxcc rd rs1 op s
  | .and rd rs1 op => Sys2Proof.Machine.execAnd rd rs1 op s
  | .andcc rd rs1 op => Sys2Proof.Machine.execAndcc rd rs1 op s
  | .andn rd rs1 op => Sys2Proof.Machine.execAndn rd rs1 op s
  | .andncc rd rs1 op => Sys2Proof.Machine.execAndncc rd rs1 op s
  | .or rd rs1 op => Sys2Proof.Machine.execOr rd rs1 op s
  | .orcc rd rs1 op => Sys2Proof.Machine.execOrcc rd rs1 op s
  | .orn rd rs1 op => Sys2Proof.Machine.execOrn rd rs1 op s
  | .orncc rd rs1 op => Sys2Proof.Machine.execOrncc rd rs1 op s
  | .xor rd rs1 op => Sys2Proof.Machine.execXor rd rs1 op s
  | .xorcc rd rs1 op => Sys2Proof.Machine.execXorcc rd rs1 op s
  | .xnor rd rs1 op => Sys2Proof.Machine.execXnor rd rs1 op s
  | .xnorcc rd rs1 op => Sys2Proof.Machine.execXnorcc rd rs1 op s
  | .sll rd rs1 op => Sys2Proof.Machine.execSll rd rs1 op s
  | .srl rd rs1 op => Sys2Proof.Machine.execSrl rd rs1 op s
  | .sra rd rs1 op => Sys2Proof.Machine.execSra rd rs1 op s
  | .taddcc rd rs1 op => Sys2Proof.Machine.execTaddcc rd rs1 op s
  | .tsubcc rd rs1 op => Sys2Proof.Machine.execTsubcc rd rs1 op s
  | .taddccTV rd rs1 op => Sys2Proof.Machine.execTaddccTV rd rs1 op s
  | .tsubccTV rd rs1 op => Sys2Proof.Machine.execTsubccTV rd rs1 op s
  | .mulscc rd rs1 op => Sys2Proof.Machine.execMulscc rd rs1 op s
  | .umul rd rs1 op => Sys2Proof.Machine.execUmul rd rs1 op s
  | .umulcc rd rs1 op => Sys2Proof.Machine.execUmulcc rd rs1 op s
  | .smul rd rs1 op => Sys2Proof.Machine.execSmul rd rs1 op s
  | .smulcc rd rs1 op => Sys2Proof.Machine.execSmulcc rd rs1 op s
  | .udiv rd rs1 op => Sys2Proof.Machine.execUdiv rd rs1 op s
  | .udivcc rd rs1 op => Sys2Proof.Machine.execUdivcc rd rs1 op s
  | .sdiv rd rs1 op => Sys2Proof.Machine.execSdiv rd rs1 op s
  | .sdivcc rd rs1 op => Sys2Proof.Machine.execSdivcc rd rs1 op s
  | .save rd rs1 op => Sys2Proof.Machine.execSave rd rs1 op s
  | .restore rd rs1 op => Sys2Proof.Machine.execRestore rd rs1 op s
  | .divscc rd rs1 op => Sys2Proof.Machine.execDivscc rd rs1 op s
  | .scan rd rs1 op => Sys2Proof.Machine.execScan rd rs1 op s
  | .umac rd rs1 op => Sys2Proof.Machine.execUmac rd rs1 op s
  | .umaccc rd rs1 op => Sys2Proof.Machine.execUmaccc rd rs1 op s
  | .smac rd rs1 op => Sys2Proof.Machine.execSmac rd rs1 op s
  | .smaccc rd rs1 op => Sys2Proof.Machine.execSmaccc rd rs1 op s
  | .jmpl rd rs1 op => Sys2Proof.Machine.execJmpl rd rs1 op s
  | .rett rs1 op => Sys2Proof.Machine.execRett rs1 op s
  | .ta rs1 op => Sys2Proof.Machine.execTa rs1 op s
  | .tn rs1 op => Sys2Proof.Machine.execTn rs1 op s
  | .tne rs1 op => Sys2Proof.Machine.execTne rs1 op s
  | .te rs1 op => Sys2Proof.Machine.execTe rs1 op s
  | .tg rs1 op => Sys2Proof.Machine.execTg rs1 op s
  | .tle rs1 op => Sys2Proof.Machine.execTle rs1 op s
  | .tge rs1 op => Sys2Proof.Machine.execTge rs1 op s
  | .tl rs1 op => Sys2Proof.Machine.execTl rs1 op s
  | .tgu rs1 op => Sys2Proof.Machine.execTgu rs1 op s
  | .tleu rs1 op => Sys2Proof.Machine.execTleu rs1 op s
  | .tcc rs1 op => Sys2Proof.Machine.execTcc rs1 op s
  | .tcs rs1 op => Sys2Proof.Machine.execTcs rs1 op s
  | .tpos rs1 op => Sys2Proof.Machine.execTpos rs1 op s
  | .tneg rs1 op => Sys2Proof.Machine.execTneg rs1 op s
  | .tvc rs1 op => Sys2Proof.Machine.execTvc rs1 op s
  | .tvs rs1 op => Sys2Proof.Machine.execTvs rs1 op s
  | .rdy rd => Sys2Proof.Machine.execRdy rd s
  | .stbar => Sys2Proof.Machine.execStbar s
  | .rdasr rd rs1 => Sys2Proof.Machine.execRdasr rd rs1 s
  | .rdpsr rd => Sys2Proof.Machine.execRdpsr rd s
  | .rdwim rd => Sys2Proof.Machine.execRdwim rd s
  | .rdtbr rd => Sys2Proof.Machine.execRdtbr rd s
  | .wry rs1 op => Sys2Proof.Machine.execWry rs1 op s
  | .wrasr rd rs1 op => Sys2Proof.Machine.execWrasr rd rs1 op s
  | .wrpsr rd rs1 op => Sys2Proof.Machine.execWrpsr rd rs1 op s
  | .wrwim rs1 op => Sys2Proof.Machine.execWrwim rs1 op s
  | .wrtbr rs1 op => Sys2Proof.Machine.execWrtbr rs1 op s
  | .flush rs1 op => Sys2Proof.Machine.execFlush rs1 op s
  | .fpop1 rd rs1 opf rs2 => Sys2Proof.Machine.execFpop1 rd rs1 opf rs2 s
  | .fpop2 rd rs1 opf rs2 => Sys2Proof.Machine.execFpop2 rd rs1 opf rs2 s
  | .cpop1 rd rs1 opf rs2 => Sys2Proof.Machine.execCpop1 rd rs1 opf rs2 s
  | .cpop2 rd rs1 opf rs2 => Sys2Proof.Machine.execCpop2 rd rs1 opf rs2 s
  | .ldsb rd rs1 op => Sys2Proof.Machine.execLdsb rd rs1 op s
  | .ldsh rd rs1 op => Sys2Proof.Machine.execLdsh rd rs1 op s
  | .ldub rd rs1 op => Sys2Proof.Machine.execLdub rd rs1 op s
  | .lduh rd rs1 op => Sys2Proof.Machine.execLduh rd rs1 op s
  | .ld rd rs1 op => Sys2Proof.Machine.execLd rd rs1 op s
  | .ldd rd rs1 op => Sys2Proof.Machine.execLdd rd rs1 op s
  | .stb rd rs1 op => Sys2Proof.Machine.execStb rd rs1 op s
  | .sth rd rs1 op => Sys2Proof.Machine.execSth rd rs1 op s
  | .st rd rs1 op => Sys2Proof.Machine.execSt rd rs1 op s
  | .std rd rs1 op => Sys2Proof.Machine.execStd rd rs1 op s
  | .ldstub rd rs1 op => Sys2Proof.Machine.execLdstub rd rs1 op s
  | .swap rd rs1 op => Sys2Proof.Machine.execSwap rd rs1 op s
  | .ldsba rd rs1 asi rs2 => Sys2Proof.Machine.execLdsba rd rs1 asi rs2 s
  | .ldsha rd rs1 asi rs2 => Sys2Proof.Machine.execLdsha rd rs1 asi rs2 s
  | .lduba rd rs1 asi rs2 => Sys2Proof.Machine.execLduba rd rs1 asi rs2 s
  | .lduha rd rs1 asi rs2 => Sys2Proof.Machine.execLduha rd rs1 asi rs2 s
  | .lda rd rs1 asi rs2 => Sys2Proof.Machine.execLda rd rs1 asi rs2 s
  | .ldda rd rs1 asi rs2 => Sys2Proof.Machine.execLdda rd rs1 asi rs2 s
  | .stba rd rs1 asi rs2 => Sys2Proof.Machine.execStba rd rs1 asi rs2 s
  | .stha rd rs1 asi rs2 => Sys2Proof.Machine.execStha rd rs1 asi rs2 s
  | .sta rd rs1 asi rs2 => Sys2Proof.Machine.execSta rd rs1 asi rs2 s
  | .stda rd rs1 asi rs2 => Sys2Proof.Machine.execStda rd rs1 asi rs2 s
  | .ldstuba rd rs1 asi rs2 => Sys2Proof.Machine.execLdstuba rd rs1 asi rs2 s
  | .swapa rd rs1 asi rs2 => Sys2Proof.Machine.execSwapa rd rs1 asi rs2 s
  | .ldf rd rs1 op => Sys2Proof.Machine.execLdf rd rs1 op s
  | .ldfsr rd rs1 op => Sys2Proof.Machine.execLdfsr rd rs1 op s
  | .lddf rd rs1 op => Sys2Proof.Machine.execLddf rd rs1 op s
  | .stf rd rs1 op => Sys2Proof.Machine.execStf rd rs1 op s
  | .stfsr rd rs1 op => Sys2Proof.Machine.execStfsr rd rs1 op s
  | .stdfq rd rs1 op => Sys2Proof.Machine.execStdfq rd rs1 op s
  | .stdf rd rs1 op => Sys2Proof.Machine.execStdf rd rs1 op s
  | .ldc rd rs1 op => Sys2Proof.Machine.execLdc rd rs1 op s
  | .ldcsr rd rs1 op => Sys2Proof.Machine.execLdcsr rd rs1 op s
  | .lddc rd rs1 op => Sys2Proof.Machine.execLddc rd rs1 op s
  | .stc rd rs1 op => Sys2Proof.Machine.execStc rd rs1 op s
  | .stcsr rd rs1 op => Sys2Proof.Machine.execStcsr rd rs1 op s
  | .stdcq rd rs1 op => Sys2Proof.Machine.execStdcq rd rs1 op s
  | .stdc rd rs1 op => Sys2Proof.Machine.execStdc rd rs1 op s

end Sys2Proof.Machine
end

