-- ==== Sys2Proof/Machine/Events.lean ====
section
/-! DEFINITION. What the other agents and the host do between two instructions: sample ticks, clock ticks, input lines, bus
errors (spec/92_eei_decisions.md D19; log 8), and the reset trap (spec/70_reset_and_hazards.md R700; log 9). -/

namespace Sys2Proof.Machine

/-! ## Reset (spec/70_reset_and_hazards.md R700, R702; spec/10_state.md R65) -/

/-- A value that reset leaves unspecified: the `k`-th that this reset draws (log 9). -/
def State.unspecified (s : State) (k : Nat) : Word := Config.freeWord (s.freeCount + k)

/-- How many values reset draws for the processor and the MMU's registers. -/
def processorDraws : Nat := 532

/-- The processor's registers that reset leaves unspecified (R65). -/
def State.resetProcessor (s : State) : State :=
  { s with
    windows := Vector.ofFn fun i => s.unspecified i.val
    globals := Vector.ofFn fun i => s.unspecified (512 + i.val)
    tba := (s.unspecified 520).extractLsb' 0 20
    wim := s.unspecified 521 &&& lowMask s.cfg.nwindows
    y := s.unspecified 522
    accHi := s.unspecified 523 &&& lowMask s.cfg.accHiWidth
    accLo := s.unspecified 524
    accOverflow := (s.unspecified 525).getLsbD 0
    accCarry := (s.unspecified 525).getLsbD 1
    awpReg := (s.unspecified 526).extractLsb' 0 5 }

/-- The MMU after reset: disabled, the rest unspecified (R65, R704); the V8 MMU has no locks, KE and G (R158; log 18). -/
def State.resetMmu (s : State) : State :=
  { s with
    mmuEnable := false
    mmuNoFault := (s.unspecified 525).getLsbD 2
    ctp := (s.unspecified 527).extractLsb' 0 30
    ctx := (s.unspecified 528 &&& lowMask s.cfg.ctxBits).extractLsb' 0 7
    fsr := s.unspecified 529 &&& 0x3FF#32
    far := s.unspecified 530
    tlb := s.tlb.mapIdx fun i _ =>
      { word0 := s.cfg.dropPpn (s.unspecified (processorDraws + 3 * i))
        word1 := s.cfg.dropV8e (s.cfg.dropContext (s.unspecified (processorDraws + 3 * i + 1)))
        lb := s.cfg.v8e && (s.unspecified (processorDraws + 3 * i + 2)).getLsbD 0 } }

/-- A handler with unspecified fields; its line stays (R65). -/
def Handler.unspecified (h : Handler) (w : Word) : Handler :=
  { h with
    inv := w.getLsbD 0, width := w.extractLsb' 1 2, en := w.getLsbD 3, buf := w.getLsbD 4, shift := w.extractLsb' 5 6 }

/-- A controller after reset: every register 0, the history unspecified, no sample taken (spec/60_exceptions.md R592, R594,
R597). -/
def Iirc.afterReset (c : Config) (u : Iirc) (w : Nat → Word) : Iirc :=
  { u with
    mode0 := 0#16, mode1 := 0#16, irqLatch := 0#16, mask := 0#16, irlLatch := 0#4
    hist := (List.range c.historyLength).map fun k => (w k).extractLsb' 0 16
    seen := 0 }

/-- A pulse generator after reset: not running, the rest unspecified (R65; spec/61_timers_dsu.md R605). -/
def Ppg.afterReset (c : Config) (p : Ppg) (w : Nat → Word) : Ppg :=
  { p with
    scalerSet := w 0 &&& lowMask c.scalerBits, scalerCnt := w 1 &&& lowMask c.scalerBits
    counterSet := w 2 &&& lowMask c.counterBits, counterCnt := w 3 &&& lowMask c.counterBits
    shaper := (w 4).extractLsb' 0 8 &&& 0x73#8
    out := (w 5).getLsbD 0
    sRun := false, cRun := false, afterZero := (w 5).getLsbD 1 }

/-- A timer unit after reset: Table 7's values, stopped; o, PC and the cascade unspecified (spec/61_timers_dsu.md R651). -/
def Timer.afterReset (c : Config) (t : Timer) (w : Nat → Word) : Timer :=
  { Timer.reset c with
    o := (w 0).getLsbD 0
    prescale := bit ((w 0).getLsbD 1)
    inSample := (w 0).getLsbD 2
    cascade := (List.range c.cascadeLength).map fun k => (w (k + 1)).getLsbD 0
    inLine := t.inLine
    external := t.external }

/-- How many values reset draws for each kind of peripheral, in the order TLB, handlers, controllers, pulse generators,
counters, timers. -/
def State.drawsBefore (s : State) (kind : Nat) : Nat :=
  processorDraws + (([3 * s.tlb.length, s.handlers.length,
    s.cfg.historyLength * s.iircs.length, 6 * s.ppgs.length, 3 * s.counters.length,
    (s.cfg.cascadeLength + 1) * s.timers.length].take kind).sum)

/-- The peripheral blocks after reset (R65, R702). -/
def State.resetPeripherals (s : State) : State :=
  { s with
    handlers := s.handlers.mapIdx fun i h => h.unspecified (s.unspecified (s.drawsBefore 1 + i))
    iircs := s.iircs.mapIdx fun i u => u.afterReset s.cfg fun k =>
      s.unspecified (s.drawsBefore 2 + s.cfg.historyLength * i + k)
    ppgs := s.ppgs.mapIdx fun i p => p.afterReset s.cfg fun k => s.unspecified (s.drawsBefore 3 + 6 * i + k)
    counters := s.counters.mapIdx fun i _ =>
      { count := s.unspecified (s.drawsBefore 4 + 3 * i) &&& lowMask s.cfg.scBits
        preload := s.unspecified (s.drawsBefore 4 + 3 * i + 1) &&& lowMask s.cfg.scBits
        strobe := (s.unspecified (s.drawsBefore 4 + 3 * i + 2)).getLsbD 0 }
    sysctl := s.unspecified 531 &&& enableMask s.cfg
    timers := s.timers.mapIdx fun i t => t.afterReset s.cfg fun k =>
      s.unspecified (s.drawsBefore 5 + (s.cfg.cascadeLength + 1) * i + k) }

/-- The status registers of the reset trap (R700): error mode is left, AW, PAW, SVT and ET are cleared, S goes to PS, CWP
moves to the previous window; tt, PIL and the condition codes keep their values. -/
def State.resetStatus (s : State) : State :=
  { s with
    errorMode := false
    aw := false
    paw := false
    svt := false
    et := false
    ps := s.sup
    sup := true
    cwp := s.prevWindow
    condDelay := false }

/-- The reset trap (R700): memory holds whatever it holds (R65, decision D14; log 9). -/
def State.resetTrap (s : State) : State :=
  let t := s.resetProcessor.resetMmu.resetPeripherals.resetStatus
  { ((t.setReg 17#5 s.pc).setReg 18#5 s.npc) with
    pc := 0#32, npc := 4#32, mem := canonicalMemory (Config.freeMemory s.freeCount)
    freeCount := s.freeCount + s.drawsBefore 6 }

/-! ## Ticks and input lines -/

/-- A 16-bit word with one bit set to `b`. -/
def setLine (w : BitVec 16) (x : Nat) (b : Bool) : BitVec 16 :=
  if b then w ||| BitVec.twoPow 16 x else w &&& ~~~(BitVec.twoPow 16 x)

/-- Changes the handler in a slot. -/
def State.mapHandler (s : State) (slot : Nat) (f : Handler → Handler) : State :=
  if slot % 16 = 0 then s
  else { s with handlers := s.handlers.modify (handlerIndex slot) f }

/-- A sample tick of a handler (spec/60_exceptions.md R562). -/
def State.tickHandler (s : State) (slot : Nat) : State :=
  s.mapHandler slot fun h => h.sample (s.sinkLevel (.handlerIn slot) h.line)

/-- A sample tick of a controller (spec/60_exceptions.md R591, R592). -/
def State.tickController (s : State) (u : Nat) : State :=
  { s with iircs := s.iircs.modify u fun v => v.sample s.cfg (isMainController s.cfg u) (s.requestLines u v) }

/-- A count pulse of a pulse generator (spec/61_timers_dsu.md R605); it draws the two values that a decrement from 0 would give
(log 28). -/
def State.tickPulse (s : State) (n : Nat) : State :=
  let (v, t) := s.drawFree
  let (w, u) := t.drawFree
  { u with ppgs := s.ppgs.modify n fun p => p.countPulse s.cfg (v, w) (s.sinkLevel (.pulseEnable n) p.enable) }

/-- A processor-clock tick of a simple counter (spec/61_timers_dsu.md R622, R623). -/
def State.tickCounter (s : State) (i : Nat) : State :=
  match s.cfg.simpleCounters[i]? with
  | some k => { s with counters := s.counters.modify i fun n => n.tick s.cfg (s.sysctl.getLsbD k.enableBit) }
  | none => s

/-- A tick of the timer clock or of the external clock of a timer unit (spec/61_timers_dsu.md R631). -/
def State.tickTimer (s : State) (n : Nat) (isExternal : Bool) : State :=
  match s.cfg.timers[n]? with
  | some u =>
    if (if isExternal then u.hasExternalClock else u.hasTimerClock) then
      { s with timers := s.timers.modify n fun t => t.clock u isExternal (s.timerLevel n t) }
    else s
  | none => s

/-- The host drives the external clock of a timer unit: its rise is a tick (spec/61_timers_dsu.md R631; log 30). -/
def State.driveExternal (s : State) (n : Nat) (level : Bool) : State :=
  match s.timers[n]? with
  | some t =>
    let r := { s with timers := s.timers.set n { t with external := level } }
    if level && !t.external then r.tickTimer n true else r
  | none => s

/-- The In Signal of a timer unit is synchronised (spec/61_timers_dsu.md R631, R636). -/
def State.sampleTimer (s : State) (n : Nat) : Host.Outcome State Fault Refusal :=
  match s.timers[n]?, s.cfg.timers[n]? with
  | some t, some u =>
    match t.sampleIn u (s.timerLevel n t) with
    | .ok r => .next { s with timers := s.timers.set n r }
    | .error e => .refused e
  | _, _ => .next s

/-- What one event does (log 8). An agent that the implementation does not have does nothing. The processor's own step is
not an event of this kind. -/
def applyEvent (s : State) : Event → Host.Outcome State Fault Refusal
  | .processor => .next s
  | .reset => .next s.resetTrap
  | .requestLevel irl => .next { s with irlHost := irl }
  | .handlerLine slot level => .next (s.mapHandler slot fun h => { h with line := level })
  | .handlerTick slot => .next (s.tickHandler slot)
  | .requestLine u x level => .next { s with iircs := s.iircs.modify u fun v => { v with lines := setLine v.lines x level } }
  | .controllerTick u => .next (s.tickController u)
  | .pulseEnable n level => .next { s with ppgs := s.ppgs.modify n fun p => { p with enable := level } }
  | .countPulse n => .next (s.tickPulse n)
  | .counterTick i => .next (s.tickCounter i)
  | .timerIn n level => .next { s with timers := s.timers.modify n fun t => { t with inLine := level } }
  | .timerSample n => s.sampleTimer n
  | .timerClock n => .next (s.tickTimer n false)
  | .externalClock n level => .next (s.driveExternal n level)
  | .busError e => .next { s with inject := some e }

end Sys2Proof.Machine
end

