-- ==== Sys2Proof/Machine/Fetch.lean ====
section
/-! DEFINITION. One instruction step of the processor: error mode, interrupts, the fetch, the decoder
(spec/60_exceptions.md R501, R525, R526; spec/20_memory.md R102, R112). -/

namespace Sys2Proof.Machine

/-- The address space of an instruction fetch (spec/20_memory.md R102). -/
def fetchAsi (s : State) : Asi := if s.sup then 0x09#8 else 0x08#8

/-- The instruction word at pc: after translation a bus error that the host injected is met (log 26), and a word stored to
since its last FLUSH is refused (spec/20_memory.md R164; log 24). -/
def fetch (s : State) : Access Word :=
  (locate s s.pc (fetchAsi s) .fetch).bind fun pa t =>
    if t.inject = some .fetch then .trap ttInstructionAccessError { t with inject := none }
    else if t.stale.contains (wordBase pa) && !t.flushed.contains (wordBase pa, s.pc.toNat / 8) then .refused .staleFetch
    else .ok (t.wordAt pa) t

/-- Executes what a word stands for (spec/30_encoding.md R213, R214; spec/44_alternate_space.md R311, R326). -/
def runDecoded (s : State) : Decoded → Host.Outcome State Fault Refusal
  | .instr i => exec i s
  | .illegal => takeTrap s ttIllegalInstruction
  | .altImmediate => takeTrap s (if !s.sup && !s.cfg.npasi then ttPrivilegedInstruction else ttIllegalInstruction)
  | .reserved => .refused .reservedField

/-- Fetches, decodes and executes. -/
def runInstruction (s : State) : Host.Outcome State Fault Refusal :=
  match fetch s with
  | .ok w t => runDecoded t (decode t.cfg w)
  | .trap tt t => takeTrap t tt
  | .fault r => .fault r
  | .refused r => .refused r

/-- One step of the processor (R501): in error mode nothing; a data_store_error that the host injected (R502; log 26); an
interrupt (R525, R526); else an instruction. -/
def processorStep (s : State) : Host.Outcome State Fault Refusal :=
  if s.errorMode then .next s
  else if s.inject = some .store then takeTrap { s with inject := none } ttDataStoreError
  else if s.interruptCondition then .next (s.enterTrap (ttInterrupt s.irl))
  else runInstruction s

/-- A word placed at a physical address from outside the machine: it is no program's store, so the next fetch finds it
(log 10). -/
def State.placeWord (s : State) (pa : Nat) (w : Word) : State :=
  { s with mem := writeWord s.mem pa w, stale := s.stale.filter fun a => !decide (a = wordBase pa) }

/-- The instruction word of a table row placed where the processor fetches next, and the processor scheduled next. -/
def State.placeInstruction (s : State) (w : Word) : State :=
  match probe s s.pc with
  | some pa => { s.placeWord pa w with env := [] }
  | none => s

end Sys2Proof.Machine
end

