-- ==== Sys2Proof/Machine/Step.lean ====
section
/-! DEFINITION. The step of the machine: the next event of the schedule, or an instruction (log 8), and the fetch interface
of the host. -/

namespace Sys2Proof.Machine

/-- One step: the head of the schedule if there is one and it is not the processor's turn, else the processor. -/
def step (s : State) : Host.Outcome State Fault Refusal :=
  match s.env with
  | [] => processorStep s
  | .processor :: rest => processorStep { s with env := rest }
  | e :: rest => applyEvent { s with env := rest } e

/-- `s` with the instruction of the low `nbits` bits of `w` where `step` fetches next (log 10). -/
def State.withFetchWord (s : State) (nbits w : Nat) : State := s.placeInstruction (BitVec.ofNat 32 (w % 2 ^ nbits))

end Sys2Proof.Machine
end

