-- ==== Sys2Proof/Safety.lean ====
section
/-! DEFINITION. The words that statements use: what a step leaves alone, what completing, trapping and being safe mean, and the
invariant of the machine. -/

namespace Sys2Proof.Machine

/-! ## Frames -/

/-- Of the stored registers only those that `rs` names in window `w` may differ; r[0] names none (spec/10_state.md R32,
R33). -/
def OnlyRegisters (s t : State) (w : Nat) (rs : List RegNum) : Prop :=
  (∀ i : Fin 8, (∀ r ∈ rs, r ≠ 0#5 → i.val ≠ r.toNat) → t.globals[i] = s.globals[i])
  ∧ (∀ i : Fin 512, (∀ r ∈ rs, 8 ≤ r.toNat → i ≠ windowIndex s.cfg w r) → t.windows[i] = s.windows[i])

/-- `t` is `s` but for the stored registers, and the program counters have moved on to the next instruction in sequence
(spec/10_state.md R38). -/
def MovedOn (s t : State) : Prop :=
  t = { s with globals := t.globals, windows := t.windows, pc := s.npc, npc := s.npc + 4#32, condDelay := false }

/-- The value a register shows after `v` is written to it: r[0] shows zero (spec/10_state.md R32). -/
def shown (rd : RegNum) (v : Word) : Word := if rd = 0#5 then 0#32 else v

/-- The instruction runs: `v` goes to r[rd], no other stored register changes, everything else is as in `base`, and the next
instruction in sequence follows. -/
def Completes (i : Instr) (s base : State) (rd : RegNum) (v : Word) : Prop :=
  ∃ t, exec i s = .next t ∧ t.reg rd = shown rd v ∧ OnlyRegisters s t s.window [rd] ∧ MovedOn base t

/-- `s` with the four condition codes. -/
def withFlags (s : State) (n z v c : Bool) : State := { s with n := n, z := z, v := v, c := c }

/-- `s` with the condition codes of the sum `a + b + cin`: negative, zero, not a signed word, carry out of bit 31
(spec/45_v8_base_alu.md R382). -/
def afterSum (s : State) (a b : Word) (cin : Bool) : State :=
  let x := a.toNat + b.toNat + cin.toNat
  let y := a.toInt + b.toInt + cin.toNat
  withFlags s (decide (2 ^ 31 ≤ x % 2 ^ 32)) (decide (x % 2 ^ 32 = 0)) (decide (y < -2 ^ 31 ∨ 2 ^ 31 ≤ y)) (decide (2 ^ 32 ≤ x))

/-- `s` with the condition codes of the difference `a - b - cin`: negative, zero, not a signed word, borrow
(spec/45_v8_base_alu.md R383). -/
def afterDifference (s : State) (a b : Word) (cin : Bool) : State :=
  let x : Int := a.toNat - b.toNat - cin.toNat
  let y : Int := a.toInt - b.toInt - cin.toNat
  withFlags s (decide (2 ^ 31 ≤ x % 2 ^ 32)) (decide (x % 2 ^ 32 = 0)) (decide (y < -2 ^ 31 ∨ 2 ^ 31 ≤ y)) (decide (x < 0))

/-- `s` with N and Z of the result `w`, the given V, and C cleared (spec/45_v8_base_alu.md R372, R376, R383). -/
def afterResult (s : State) (w : Word) (v : Bool) : State :=
  withFlags s (decide (2 ^ 31 ≤ w.toNat)) (decide (w.toNat = 0)) v false

/-- One of the two operands of a tagged instruction has a nonzero tag (spec/45_v8_base_alu.md R366). -/
def anyTag (a b : Word) : Bool := decide (a.toNat % 4 ≠ 0 ∨ b.toNat % 4 ≠ 0)

/-- `s` with V also set by a nonzero tag. -/
def orTag (s : State) (a b : Word) : State := { s with v := s.v || anyTag a b }

/-- A conditional branch: the four cases (b), (c), (d) of spec/46_v8_base_control.md R400; `condDelay` marks a delay
instruction that executes (log 25). -/
def Branches (i : Instr) (s : State) (taken a : Bool) (disp22 : BitVec 22) : Prop :=
  exec i s = .next
    (if taken = true then
      { s with pc := s.npc, npc := BitVec.ofInt 32 (s.pc.toNat + 4 * disp22.toInt), condDelay := true }
     else if a = true then { s with pc := s.npc + 4#32, npc := s.npc + 8#32, condDelay := false }
     else { s with pc := s.npc, npc := s.npc + 4#32, condDelay := true })

/-- The number that `n` bytes of memory from `pa` hold, the byte at the lowest address first (spec/20_memory.md R110). -/
def bigEndian (s : State) (pa : Nat) : Nat → Nat
  | 0 => 0
  | n + 1 => bigEndian s pa n * 256 + (s.byteAt (pa + n)).toNat

/-- Every byte of memory outside the `size` bytes from `lo` reads as before. -/
def MemoryOutside (s t : State) (lo size : Nat) : Prop := ∀ a, a < lo ∨ lo + size ≤ a → t.byteAt a = s.byteAt a

/-- `t` is `s` but for the bytes of memory and the marks of stored words, and the program counters have moved on. -/
def StoredAndMovedOn (s t : State) : Prop :=
  t = { s with
    mem := t.mem, stale := t.stale, flushed := t.flushed, pc := s.npc, npc := s.npc + 4#32, condDelay := false }

/-- The marks of the stored words (log 24) in `u` are those of `t` and one for every word of which one of the `n` bytes from `pa`
is a byte; the FLUSHes recorded for these words are forgotten. -/
def MarksStored (t u : State) (pa n : Nat) : Prop :=
  (∀ a, a ∈ u.stale ↔ a ∈ t.stale ∨ (a % 4 = 0 ∧ pa ≤ a + 3 ∧ a < pa + n))
  ∧ (∀ p, p ∈ u.flushed ↔ p ∈ t.flushed ∧ ¬ (p.1 % 4 = 0 ∧ pa ≤ p.1 + 3 ∧ p.1 < pa + n))

/-- The instruction runs and stores: the `n` bytes from `pa` hold `x`, most significant byte first, every other byte of memory
reads as in `t`, the stored words are marked (log 24), nothing else differs from `t`, and the next instruction in sequence
follows. -/
def Stores (i : Instr) (s t : State) (pa n x : Nat) : Prop :=
  ∃ u, exec i s = .next u ∧ StoredAndMovedOn t u
    ∧ (∀ k, k < n → (u.byteAt (pa + k)).toNat = x / 256 ^ (n - 1 - k) % 256)
    ∧ MemoryOutside t u pa n
    ∧ MarksStored t u pa n

/-- The instruction runs and exchanges: `v` goes to r[rd], the `n` bytes from `pa` hold `x`, and nothing else differs from
`t` but the marks of stored words and the program counters. -/
def Exchanges (i : Instr) (s t : State) (pa n x : Nat) (rd : RegNum) (v : Word) : Prop :=
  ∃ u, exec i s = .next u ∧ u.reg rd = shown rd v ∧ OnlyRegisters s u s.window [rd]
    ∧ (∀ k, k < n → (u.byteAt (pa + k)).toNat = x / 256 ^ (n - 1 - k) % 256)
    ∧ MemoryOutside t u pa n
    ∧ MarksStored t u pa n
    ∧ u = { t with
        globals := u.globals, windows := u.windows, mem := u.mem, stale := u.stale, flushed := u.flushed
        pc := s.npc, npc := s.npc + 4#32, condDelay := false }

/-- The instruction runs and loads a pair: `v` goes to r[rd], `w` to r[rd + 1], and nothing else differs from `t` but the
program counters. -/
def LoadsPair (i : Instr) (s t : State) (rd : RegNum) (v w : Word) : Prop :=
  ∃ u, exec i s = .next u ∧ u.reg rd = shown rd v ∧ u.reg (rd + 1#5) = w
    ∧ OnlyRegisters s u s.window [rd, rd + 1#5] ∧ MovedOn t u

/-! ## Traps (spec/60_exceptions.md R505, R510 to R512) -/

/-- The address of the handler as a number. -/
def handlerAddress (s : State) (tt : TrapType) : Nat :=
  s.tba.toNat * 4096 + (if s.cfg.svt && s.svt then 0 else tt.toNat * 16)

/-- `t` is `s` after the trap `tt` was taken. -/
def TrapTaken (s t : State) (tt : TrapType) : Prop :=
  t.pc.toNat = handlerAddress s tt ∧ t.npc = t.pc + 4#32
  ∧ t.et = false ∧ t.ps = s.sup ∧ t.sup = true
  ∧ t.cwp.toNat = (s.cwp.toNat + s.cfg.nwindows - 1) % s.cfg.nwindows % 32
  ∧ t.paw = (if s.cfg.awp then s.aw else s.paw) ∧ t.aw = (if s.cfg.awp then false else s.aw)
  ∧ t.tt = tt
  ∧ t.regIn t.cwp.toNat 17#5 = s.pc ∧ t.regIn t.cwp.toNat 18#5 = s.npc
  ∧ OnlyRegisters s t t.cwp.toNat [17#5, 18#5]
  ∧ t = { s with
      globals := t.globals, windows := t.windows, pc := t.pc, npc := t.npc
      et := t.et, ps := t.ps, sup := t.sup, cwp := t.cwp, paw := t.paw, aw := t.aw, tt := t.tt, condDelay := false }

/-- The instruction takes the trap `tt` with traps enabled, and enters error mode, with `tt` recorded and nothing else
changed, with traps disabled (R505). -/
def Traps (i : Instr) (s : State) (tt : TrapType) : Prop :=
  (s.et = true → ∃ t, exec i s = .next t ∧ TrapTaken s t tt)
  ∧ (s.et = false → exec i s = .next { s with tt := tt, errorMode := true, condDelay := false })

/-! ## Memory accesses -/

/-- No translation is in force: no MMU, or an MMU that is disabled (spec/20_memory.md R130, R155). -/
def TranslationOff (s : State) : Prop :=
  s.cfg.mmu = .none ∨ ((s.cfg.mmu = .v8ref ∨ s.cfg.mmu = .v8eref) ∧ s.mmuEnable = false)

/-- `t` is `s` but for what a translation may change: the TLB, page table entries in memory (spec/20_memory.md R140), and the
counter of free values. -/
def OnlyTranslation (s t : State) : Prop := t = { s with tlb := t.tlb, mem := t.mem, freeCount := t.freeCount }

/-- What an access to `ea` reaches is the memory byte at `pa`; `t` is the state after the translation. -/
def Reaches (s : State) (asi : Asi) (ea : Word) (kind : AccessKind) (pa : Nat) (t : State) : Prop :=
  resolve s asi ea kind = .ok (.memory pa) t

/-- `t` is `s` but for what a faulting access may change: the fault registers, the TLB, the injected bus error that is met, the
counter of free values, and, only where a bus error meets an access that was already translated, the page table entry that the
walk marked (spec/20_memory.md R140, R147, R151, R152). -/
def OnlyFaultStatus (s t : State) : Prop :=
  t = { s with fsr := t.fsr, far := t.far, tlb := t.tlb, mem := t.mem, inject := t.inject, freeCount := t.freeCount }
  ∧ (s.inject ≠ some .data → t.mem = s.mem ∧ t.inject = s.inject)

/-- Byte `a` lies outside the page table entry that the table walk for `va` ends at, if it ends at one (spec/20_memory.md
R135). -/
def OutsideEntry (s : State) (va : Word) (a : Nat) : Prop :=
  ∀ addr pte level ke, walk s va s.cfg.v8e = .entry addr pte level ke → a < addr ∨ addr + 4 ≤ a

/-- The translation of `va` ends in a fault of type `ft` at `level`: the access exception of its kind, FSR with the level, the
access type, the fault type, FAV and OW, and a data address in FAR (spec/20_memory.md R152; log 19). -/
def MmuFaults (s : State) (va : Word) (asi : Asi) (kind : AccessKind) (ft level : Nat) (t : State) : Prop :=
  translate s va asi kind = .trap (if kind = .fetch then 0x01#8 else 0x09#8) t
  ∧ t.fsr.toNat = level * 256
      + ((if kind = .store ∨ kind = .atomic then 4 else 0) + (if asi = 0x08#8 ∨ asi = 0x09#8 then 2 else 0)
        + asi.toNat % 2) * 32
      + ft * 4 + (if kind = .fetch then 0 else 2) + (if s.fsr.toNat / 4 % 8 = 0 then 0 else 1)
  ∧ t.far = (if kind = .fetch then s.far else va)

/-- R set, and M for an access that writes, in a page table entry or word 0 of a descriptor (spec/20_memory.md R140). -/
def marked (w : Word) (kind : AccessKind) : Word :=
  w ||| 0x20#32 ||| (if kind = .store ∨ kind = .atomic then 0x40#32 else 0#32)

/-- The table of `size` bytes at `table` is aligned to its size, and its entry at `a` exists (spec/20_memory.md R134, R137). -/
def TableAt (s : State) (table size a : Nat) : Prop := table % size = 0 ∧ s.cfg.physExists (a + 3) = true

/-- The walk for `va` ends at the entry at `a`, read at `level`, if that is no table: ET = 0 is an invalid entry, ET = 2 and in
the V8E MMU ET = 3 a page, ET = 3 in the V8 MMU an error (spec/20_memory.md R135, R136, R158). -/
def EndsAt (s : State) (va : Word) (a : Nat) (level : BitVec 2) (ke : Bool) : Prop :=
  let et := (s.wordAt a).toNat % 4
  (et = 0 → walk s va s.cfg.v8e = .fault 1#3 level)
  ∧ (et = 2 ∨ (et = 3 ∧ s.cfg.mmu = .v8eref) → walk s va s.cfg.v8e = .entry a (s.wordAt a) level ke)
  ∧ (et = 3 ∧ s.cfg.mmu ≠ .v8eref → walk s va s.cfg.v8e = .fault 4#3 level)

/-- The privilege that an address space asks for is there (spec/44_alternate_space.md R310). -/
def AsiAllowed (s : State) (asi : Asi) : Prop := s.sup = true ∨ (s.cfg.npasi = true ∧ 128 ≤ asi.toNat)

/-! ## Steps -/

/-- The next step of `s` is the processor's, taken from `u`: nothing is scheduled, or the head of the schedule is the
processor's turn (log 8). -/
def ProcessorTurn (s u : State) : Prop :=
  (s.env = [] ∧ u = s) ∨ ∃ rest, s.env = .processor :: rest ∧ u = { s with env := rest }

/-! ## Outcomes -/

/-- A step that neither faults nor is refused. -/
def goesOn (o : Host.Outcome State Fault Refusal) : Bool :=
  match o with
  | .next _ => true
  | .fault _ => false
  | .refused _ => false

/-! ## Privilege -/

/-- The registers that only privileged instructions and traps change are the same (spec/60_exceptions.md R531). -/
def SamePrivileged (s t : State) : Prop :=
  t.sup = s.sup ∧ t.ps = s.ps ∧ t.et = s.et ∧ t.pil = s.pil ∧ t.aw = s.aw ∧ t.paw = s.paw ∧ t.wim = s.wim ∧ t.tba = s.tba
  ∧ t.tt = s.tt ∧ t.svt = s.svt ∧ t.awpReg = s.awpReg ∧ t.errorMode = s.errorMode ∧ t.mmuEnable = s.mmuEnable
  ∧ t.mmuNoFault = s.mmuNoFault ∧ t.ctp = s.ctp ∧ t.ctx = s.ctx

/-! ## The invariant -/

/-- What holds of the machine between any two steps: a legal implementation, whose lists of peripherals have the lengths it
gives; memory in its canonical form (log 5); aligned program counters (spec/10_state.md R39); CWP a window
(spec/10_state.md R47); no WIM bit of an absent window (spec/10_state.md R50); no accumulator bit above its width
(spec/10_state.md R55); a context number in range (spec/20_memory.md R133); traps disabled in error mode
(spec/60_exceptions.md R505). -/
def Inv (s : State) : Prop :=
  s.cfg.wf = true
  ∧ s.tlb.length = s.cfg.nTlb ∧ s.handlers.length = s.cfg.nHandlers ∧ s.iircs.length = s.cfg.iircBases.length
  ∧ s.ppgs.length = s.cfg.nPpg ∧ s.counters.length = s.cfg.simpleCounters.length
  ∧ s.timers.length = s.cfg.timers.length
  ∧ Memory.wf s.mem = true
  ∧ s.pc.toNat % 4 = 0 ∧ s.npc.toNat % 4 = 0
  ∧ s.cwp.toNat < s.cfg.nwindows
  ∧ (∀ k, s.cfg.nwindows ≤ k → s.wim.getLsbD k = false)
  ∧ (∀ k, s.cfg.accHiWidth ≤ k → s.accHi.getLsbD k = false)
  ∧ s.ctx.toNat < 2 ^ s.cfg.ctxBits
  ∧ (s.errorMode = true → s.et = false)

end Sys2Proof.Machine
end

