-- ==== Sys2Proof/Certificates/Slice0/Obligations.lean ====
section
/-! DEFINITION. The statements for the provers, in the order of OBLIGATIONS.json: what decodes, what each instruction does and
leaves alone, where it traps, what translation, traps, interrupts, reset and the peripherals do, and the invariant that every
step keeps. Each docstring says what rests on a choice of the model, by its log entry. -/

section

open Sys2Proof Sys2Proof.Machine

/-- Decoding the encoding of any well-formed instruction gives it back. The opcode positions that the source leaves open are
those of the implementation (log 2); a reserved field decodes as 0 (log 11). -/
def Obligations.DecodeOfEncode : Prop :=
  ∀ (c : Config) (i : Instr), c.coreWf = true → i.wellFormed c = true → decode c (encode c i) = .instr i

/-- Every word that decodes to an instruction is that instruction's encoding. A nonzero reserved field is refused (log 11).
-/
def Obligations.EncodeOfDecode : Prop :=
  ∀ (c : Config) (w : Word) (i : Instr), c.coreWf = true → decode c w = .instr i → i.wellFormed c = true ∧ encode c i = w

/-- Words written from the spec's encodings decode to the instructions they stand for. R202 to R212. The opcodes of the
multiply-accumulate instructions are the implementation's (log 2). -/
def Obligations.SpecWordsDecode : Prop :=
  ∀ c : Config,
    decode c 0x40000010#32 = .instr (.call 0x10#30)
    ∧ decode c 0x12800003#32 = .instr (.bne false 3#22)
    ∧ decode c 0x30800004#32 = .instr (.ba true 4#22)
    ∧ decode c 0x01000000#32 = .instr (.sethi 0#5 0#22)
    ∧ decode c 0x81C3E008#32 = .instr (.jmpl 0#5 15#5 (.imm 8#13))
    ∧ decode c 0x81CC8000#32 = .instr (.rett 18#5 (.reg 0#5))
    ∧ decode c 0x91D02003#32 = .instr (.ta 0#5 (.imm 3#7))
    ∧ decode c 0xA1480000#32 = .instr (.rdpsr 16#5)
    ∧ decode c 0x83444000#32 = .instr (.rdasr 1#5 17#5)
    ∧ decode c 0xA3802001#32 = .instr (.wrasr 17#5 0#5 (.imm 1#13))
    ∧ decode c 0x81803FFF#32 = .instr (.wry 0#5 (.imm 0x1FFF#13))
    ∧ decode c 0xC3000000#32 = .instr (.ldf 1#5 0#5 (.reg 0#5))
    ∧ decode c 0x86004002#32 = .instr (.add 3#5 1#5 (.reg 2#5))
    ∧ decode c 0x86006005#32 = .instr (.add 3#5 1#5 (.imm 5#13))
    ∧ decode c 0x86A04002#32 = .instr (.subcc 3#5 1#5 (.reg 2#5))
    ∧ decode c 0x86084002#32 = .instr (.and 3#5 1#5 (.reg 2#5))
    ∧ decode c 0x86B87FFF#32 = .instr (.xnorcc 3#5 1#5 (.imm 0x1FFF#13))
    ∧ decode c 0x8728601F#32 = .instr (.sll 3#5 1#5 (.imm 31#5))
    ∧ decode c 0x87384002#32 = .instr (.sra 3#5 1#5 (.reg 2#5))
    ∧ decode c 0x87104002#32 = .instr (.taddccTV 3#5 1#5 (.reg 2#5))
    ∧ decode c 0x87204002#32 = .instr (.mulscc 3#5 1#5 (.reg 2#5))
    ∧ decode c 0x86504002#32 = .instr (.umul 3#5 1#5 (.reg 2#5))
    ∧ decode c 0x86F84002#32 = .instr (.sdivcc 3#5 1#5 (.reg 2#5))
    ∧ decode c 0x9DE3BFA0#32 = .instr (.save 14#5 14#5 (.imm 0x1FA0#13))
    ∧ decode c 0x81E80000#32 = .instr (.restore 0#5 0#5 (.reg 0#5))
    ∧ decode c 0x81D86004#32 = .instr (.flush 1#5 (.imm 4#13))
    ∧ decode c 0x8143C000#32 = .instr .stbar
    ∧ decode c 0x0000002A#32 = .instr (.unimp 0#5 42#22)
    ∧ decode c 0x83A08823#32 = .instr (.fpop1 1#5 2#5 0x41#9 3#5)
    ∧ decode c 0xC6006004#32 = .instr (.ld 3#5 1#5 (.imm 4#13))
    ∧ decode c 0xC6484002#32 = .instr (.ldsb 3#5 1#5 (.reg 2#5))
    ∧ decode c 0xC8386008#32 = .instr (.std 4#5 1#5 (.imm 8#13))
    ∧ decode c 0xC6684002#32 = .instr (.ldstub 3#5 1#5 (.reg 2#5))
    ∧ decode c 0xC6786000#32 = .instr (.swap 3#5 1#5 (.imm 0#13))
    ∧ decode c 0xC6804162#32 = .instr (.lda 3#5 1#5 0x0B#8 2#5)
    ∧ decode c 0xC8B85822#32 = .instr (.stda 4#5 1#5 0xC1#8 2#5)
    ∧ decode c 0xC6F84402#32 = .instr (.swapa 3#5 1#5 0x20#8 2#5)
    ∧ (c.divs = true → decode c 0x92EA400A#32 = .instr (.divscc 9#5 9#5 (.reg 10#5)))
    ∧ (c.scan = true → decode c 0x93623FFF#32 = .instr (.scan 9#5 8#5 (.imm 0x1FFF#13)))
    ∧ (c.coreWf = true → c.mac = true →
      decode c (2#2 ++ 3#5 ++ c.umacOp3 ++ 1#5 ++ 0#9 ++ 2#5) = .instr (.umac 3#5 1#5 (.reg 2#5))
      ∧ decode c (2#2 ++ 3#5 ++ c.umacccOp3 ++ 1#5 ++ 1#1 ++ 5#13) = .instr (.umaccc 3#5 1#5 (.imm 5#13))
      ∧ decode c (2#2 ++ 3#5 ++ c.smacOp3 ++ 1#5 ++ 0#9 ++ 2#5) = .instr (.smac 3#5 1#5 (.reg 2#5))
      ∧ decode c (2#2 ++ 3#5 ++ c.smacccOp3 ++ 1#5 ++ 1#1 ++ 5#13) = .instr (.smaccc 3#5 1#5 (.imm 5#13)))

/-- A word that is no instruction raises illegal_instruction; an absent option's opcode is such a word. R211, R213, R326. -/
def Obligations.UndefinedWordsTrap : Prop :=
  ∀ (c : Config) (w : Word), c.coreWf = true →
    ((w.toNat / 2 ^ 30 = 0 ∧ w.toNat / 2 ^ 22 % 8 ∈ [1, 3, 5] → decode c w = .illegal)
    ∧ (w.toNat / 2 ^ 30 = 2 ∧ w.toNat / 2 ^ 19 % 64 = 0x1D ∧ c.divs = false → decode c w = .illegal)
    ∧ (w.toNat / 2 ^ 30 = 2 ∧ w.toNat / 2 ^ 19 % 64 = 0x2C ∧ c.scan = false → decode c w = .illegal)
    ∧ (w.toNat / 2 ^ 30 = 2 ∧ w.toNat / 2 ^ 19 % 64 ∈ [0x09, 0x0D, 0x19, 0x2D, 0x2E, 0x2F, 0x3E, 0x3F]
        ∧ (c.mac = false ∨ w.toNat / 2 ^ 19 % 64 ∉
            [c.umacOp3.toNat, c.umacccOp3.toNat, c.smacOp3.toNat, c.smacccOp3.toNat]) → decode c w = .illegal)
    ∧ (w.toNat / 2 ^ 30 = 3 ∧ w.toNat / 2 ^ 19 % 64 ∈ [0x08, 0x0B, 0x0C, 0x0E, 0x18, 0x1B, 0x1C, 0x1E, 0x22, 0x32]
        → decode c w = .illegal)
    ∧ (w.toNat / 2 ^ 30 = 3 ∧ 0x28 ≤ w.toNat / 2 ^ 19 % 64 ∧ w.toNat / 2 ^ 19 % 64 ≤ 0x2F → decode c w = .illegal)
    ∧ (w.toNat / 2 ^ 30 = 3 ∧ 0x38 ≤ w.toNat / 2 ^ 19 % 64 → decode c w = .illegal)
    ∧ (w.toNat / 2 ^ 30 = 3 ∧ w.getLsbD 13 = true
        ∧ w.toNat / 2 ^ 19 % 64 ∈ [0x10, 0x11, 0x12, 0x13, 0x14, 0x15, 0x16, 0x17, 0x19, 0x1A, 0x1D, 0x1F]
        → decode c w = .altImmediate))
    ∧ (∀ s : State, runDecoded s .illegal = .next (s.raise 0x02#8)
        ∧ runDecoded s .altImmediate = .next (s.raise (if s.sup = false ∧ s.cfg.npasi = false then 0x03#8 else 0x02#8)))

/-- The value of every operand form. R206 to R208, R217, R401, R404, R486. -/
def Obligations.OperandValues : Prop :=
  ∀ (s : State) (rs1 rs2 : RegNum) (simm13 : BitVec 13) (shcnt : BitVec 5) (n : BitVec 7) (op : Operand2) (pc : Word)
      (disp22 : BitVec 22) (disp30 : BitVec 30),
    operand2 s (.reg rs2) = s.reg rs2
    ∧ operand2 s (.imm simm13) = BitVec.ofInt 32 simm13.toInt
    ∧ shiftCount s (.reg rs2) = (s.reg rs2).toNat % 32
    ∧ shiftCount s (.imm shcnt) = shcnt.toNat
    ∧ (trapNumber s rs1 (.reg rs2)).toNat = ((s.reg rs1).toNat + (s.reg rs2).toNat) % 128
    ∧ (trapNumber s rs1 (.imm n)).toNat = ((s.reg rs1).toNat + n.toNat) % 128
    ∧ (effectiveAddress s rs1 op).toNat = ((s.reg rs1).toNat + (operand2 s op).toNat) % 2 ^ 32
    ∧ (alternateAddress s rs1 rs2).toNat = ((s.reg rs1).toNat + (s.reg rs2).toNat) % 2 ^ 32
    ∧ branchTarget pc disp22 = BitVec.ofInt 32 (pc.toNat + 4 * disp22.toInt)
    ∧ callTarget pc disp30 = BitVec.ofNat 32 (pc.toNat + 4 * disp30.toNat)
    ∧ (∀ k, (writeValue s rs1 op).getLsbD k = ((s.reg rs1).getLsbD k ^^ (operand2 s op).getLsbD k))

/-- r[0] to r[7] are shared by all windows, r[0] reads as zero and discards writes. R32; that exactly r[0] to r[7] are global
is marked as general knowledge in it (log 4). -/
def Obligations.GlobalRegisters : Prop :=
  ∀ (s : State) (w w' : Nat) (r : RegNum) (x : Word),
    s.regIn w 0#5 = 0#32
    ∧ s.setRegIn w 0#5 x = s
    ∧ (r.toNat < 8 → s.regIn w r = s.regIn w' r)
    ∧ (0 < r.toNat ∧ r.toNat < 8 → (s.setRegIn w r x).regIn w' r = x)
    ∧ (8 ≤ r.toNat ∧ 2 ≤ s.cfg.nwindows ∧ s.cfg.nwindows ≤ 32 ∧ w < s.cfg.nwindows ∧ w' < s.cfg.nwindows ∧ w ≠ w' →
        (s.setRegIn w r x).regIn w' r = s.regIn w' r)

/-- Where each register of each window is stored, and which windows share registers. R33, which the spec marks as general
knowledge (log 4). -/
def Obligations.WindowLayout : Prop :=
  ∀ (s : State) (w : Nat) (r : RegNum), 2 ≤ s.cfg.nwindows → s.cfg.nwindows ≤ 32 → w < s.cfg.nwindows →
    (∀ g : Fin 8, r.toNat = g.val → s.regIn w r = if r = 0#5 then 0#32 else s.globals[g])
    ∧ (∀ k : Fin 512, 8 ≤ r.toNat → r.toNat ≤ 15 → k.val = (16 * w + (r.toNat - 8)) % (16 * s.cfg.nwindows) →
        s.regIn w r = s.windows[k])
    ∧ (∀ k : Fin 512, 16 ≤ r.toNat → r.toNat ≤ 23 → k.val = (16 * w + 8 + (r.toNat - 16)) % (16 * s.cfg.nwindows) →
        s.regIn w r = s.windows[k])
    ∧ (∀ k : Fin 512, 24 ≤ r.toNat → k.val = (16 * (w + 1) + (r.toNat - 24)) % (16 * s.cfg.nwindows) →
        s.regIn w r = s.windows[k])
    ∧ (8 ≤ r.toNat → r.toNat ≤ 15 → s.regIn w (r + 16#5) = s.regIn ((w + 1) % s.cfg.nwindows) r)
    ∧ (∀ (w' : Nat) (q : RegNum) (x : Word), 16 ≤ r.toNat → r.toNat ≤ 23 → w' < s.cfg.nwindows → w' ≠ w →
        (s.setRegIn w r x).regIn w' q = s.regIn w' q)

/-- The current window is CWP, or AWP while AW = 1, for every register an instruction reads or writes. R35
(spec/10_state.md). -/
def Obligations.CurrentWindow : Prop :=
  ∀ (s : State) (r : RegNum) (x : Word), let cw := if s.cfg.awp = true ∧ s.aw = true then s.awpReg.toNat else s.cwp.toNat
    s.reg r = s.regIn cw r ∧ s.setReg r x = s.setRegIn cw r x

/-- The bit formulas of the condition codes agree with the ranges of the exact results. R382 and R383, which the spec marks
as general knowledge (log 4). -/
def Obligations.FlagFormulas : Prop :=
  ∀ (a b : Word) (cin : Bool),
    (let res := a + b + BitVec.ofNat 32 cin.toNat
      let f := addFlags a b res
      f.n = res.getLsbD 31 ∧ f.z = decide (res = 0#32)
      ∧ f.v = ((a.getLsbD 31 && b.getLsbD 31 && !res.getLsbD 31) || (!a.getLsbD 31 && !b.getLsbD 31 && res.getLsbD 31))
      ∧ f.c = ((a.getLsbD 31 && b.getLsbD 31) || (!res.getLsbD 31 && (a.getLsbD 31 || b.getLsbD 31)))
      ∧ (f.c = true ↔ 2 ^ 32 ≤ a.toNat + b.toNat + cin.toNat)
      ∧ (f.v = true ↔ a.toInt + b.toInt + cin.toNat < -2 ^ 31 ∨ 2 ^ 31 ≤ a.toInt + b.toInt + cin.toNat))
    ∧ (let res := a - b - BitVec.ofNat 32 cin.toNat
      let f := subFlags a b res
      f.n = res.getLsbD 31 ∧ f.z = decide (res = 0#32)
      ∧ f.v = ((a.getLsbD 31 && !b.getLsbD 31 && !res.getLsbD 31) || (!a.getLsbD 31 && b.getLsbD 31 && res.getLsbD 31))
      ∧ f.c = ((!a.getLsbD 31 && b.getLsbD 31) || (res.getLsbD 31 && (!a.getLsbD 31 || b.getLsbD 31)))
      ∧ (f.c = true ↔ a.toNat < b.toNat + cin.toNat)
      ∧ (f.v = true ↔ a.toInt - b.toInt - cin.toNat < -2 ^ 31 ∨ 2 ^ 31 ≤ a.toInt - b.toInt - cin.toNat))

/-- ADD, ADDX, SUB and SUBX, with and without condition codes, complete with the result modulo 2^32. R341 to R348, R382,
R383. -/
def Obligations.AddSubtract : Prop :=
  ∀ (s : State) (rd rs1 : RegNum) (op : Operand2), let a := s.reg rs1
    let b := operand2 s op
    Completes (.add rd rs1 op) s s rd (BitVec.ofNat 32 (a.toNat + b.toNat))
    ∧ Completes (.addx rd rs1 op) s s rd (BitVec.ofNat 32 (a.toNat + b.toNat + s.c.toNat))
    ∧ Completes (.sub rd rs1 op) s s rd (BitVec.ofInt 32 (a.toNat - b.toNat))
    ∧ Completes (.subx rd rs1 op) s s rd (BitVec.ofInt 32 (a.toNat - b.toNat - s.c.toNat))
    ∧ Completes (.addcc rd rs1 op) s (afterSum s a b false) rd (BitVec.ofNat 32 (a.toNat + b.toNat))
    ∧ Completes (.addxcc rd rs1 op) s (afterSum s a b s.c) rd (BitVec.ofNat 32 (a.toNat + b.toNat + s.c.toNat))
    ∧ Completes (.subcc rd rs1 op) s (afterDifference s a b false) rd (BitVec.ofInt 32 (a.toNat - b.toNat))
    ∧ Completes (.subxcc rd rs1 op) s (afterDifference s a b s.c) rd (BitVec.ofInt 32 (a.toNat - b.toNat - s.c.toNat))

/-- The six logical operations, with and without condition codes. R349 to R360, R383. -/
def Obligations.Logical : Prop :=
  ∀ (s : State) (rd rs1 : RegNum) (op : Operand2), let a := s.reg rs1
    let b := operand2 s op
    Completes (.and rd rs1 op) s s rd (a &&& b)
    ∧ Completes (.andcc rd rs1 op) s (afterResult s (a &&& b) false) rd (a &&& b)
    ∧ Completes (.andn rd rs1 op) s s rd (a &&& ~~~b)
    ∧ Completes (.andncc rd rs1 op) s (afterResult s (a &&& ~~~b) false) rd (a &&& ~~~b)
    ∧ Completes (.or rd rs1 op) s s rd (a ||| b)
    ∧ Completes (.orcc rd rs1 op) s (afterResult s (a ||| b) false) rd (a ||| b)
    ∧ Completes (.orn rd rs1 op) s s rd (a ||| ~~~b)
    ∧ Completes (.orncc rd rs1 op) s (afterResult s (a ||| ~~~b) false) rd (a ||| ~~~b)
    ∧ Completes (.xor rd rs1 op) s s rd (a ^^^ b)
    ∧ Completes (.xorcc rd rs1 op) s (afterResult s (a ^^^ b) false) rd (a ^^^ b)
    ∧ Completes (.xnor rd rs1 op) s s rd (~~~(a ^^^ b))
    ∧ Completes (.xnorcc rd rs1 op) s (afterResult s (~~~(a ^^^ b)) false) rd (~~~(a ^^^ b))

/-- SLL, SRL, SRA and SETHI complete with the arithmetic value of the shift. R361 to R364. -/
def Obligations.ShiftsAndSethi : Prop :=
  ∀ (s : State) (rd rs1 : RegNum) (op : ShiftOperand) (imm22 : BitVec 22), let a := s.reg rs1
    let k := shiftCount s op
    k < 32
    ∧ Completes (.sll rd rs1 op) s s rd (BitVec.ofNat 32 (a.toNat * 2 ^ k))
    ∧ Completes (.srl rd rs1 op) s s rd (BitVec.ofNat 32 (a.toNat / 2 ^ k))
    ∧ Completes (.sra rd rs1 op) s s rd (BitVec.ofInt 32 (a.toInt / 2 ^ k))
    ∧ Completes (.sethi rd imm22) s s rd (BitVec.ofNat 32 (imm22.toNat * 1024))

/-- The tagged instructions, and where TADDccTV and TSUBccTV trap. R366 to R369. -/
def Obligations.TaggedArithmetic : Prop :=
  ∀ (s : State) (rd rs1 : RegNum) (op : Operand2), let a := s.reg rs1
    let b := operand2 s op
    let p := orTag (afterSum s a b false) a b
    let m := orTag (afterDifference s a b false) a b
    Completes (.taddcc rd rs1 op) s p rd (BitVec.ofNat 32 (a.toNat + b.toNat))
    ∧ Completes (.tsubcc rd rs1 op) s m rd (BitVec.ofInt 32 (a.toNat - b.toNat))
    ∧ (p.v = false → Completes (.taddccTV rd rs1 op) s p rd (BitVec.ofNat 32 (a.toNat + b.toNat)))
    ∧ (p.v = true → Traps (.taddccTV rd rs1 op) s 0x0A#8)
    ∧ (m.v = false → Completes (.tsubccTV rd rs1 op) s m rd (BitVec.ofInt 32 (a.toNat - b.toNat)))
    ∧ (m.v = true → Traps (.tsubccTV rd rs1 op) s 0x0A#8)

/-- MULScc completes with one step of the shift-and-add multiply. R370. -/
def Obligations.MultiplyStep : Prop :=
  ∀ (s : State) (rd rs1 : RegNum) (op : Operand2), let a := s.reg rs1
    let x := BitVec.ofNat 32 (a.toNat / 2 + if (s.n ^^ s.v) = true then 2 ^ 31 else 0)
    let m := if s.y.toNat % 2 = 1 then operand2 s op else 0#32
    Completes (.mulscc rd rs1 op) s
      { afterSum s x m false with y := BitVec.ofNat 32 (s.y.toNat / 2 + if a.toNat % 2 = 1 then 2 ^ 31 else 0) }
      rd (BitVec.ofNat 32 (x.toNat + m.toNat))

/-- UMUL, UMULcc, SMUL and SMULcc complete with the exact 64-bit product. R371 to R374, R277. -/
def Obligations.Multiply : Prop :=
  ∀ (s : State) (rd rs1 : RegNum) (op : Operand2), let a := s.reg rs1
    let b := operand2 s op
    let u : Int := a.toNat * b.toNat
    let p : Int := a.toInt * b.toInt
    let base := fun x : Int => { s with
      y := BitVec.ofInt 32 (x / 2 ^ 32)
      accLo := if s.cfg.mac = true then BitVec.ofInt 32 x else s.accLo
      accHi := if s.cfg.mac = true then (if x < 0 then BitVec.ofNat 32 (2 ^ s.cfg.accHiWidth - 1) else 0#32) else s.accHi }
    Completes (.umul rd rs1 op) s (base u) rd (BitVec.ofInt 32 u)
    ∧ Completes (.umulcc rd rs1 op) s (afterResult (base u) (BitVec.ofInt 32 u) false) rd (BitVec.ofInt 32 u)
    ∧ Completes (.smul rd rs1 op) s (base p) rd (BitVec.ofInt 32 p)
    ∧ Completes (.smulcc rd rs1 op) s (afterResult (base p) (BitVec.ofInt 32 p) false) rd (BitVec.ofInt 32 p)

/-- UDIV, UDIVcc, SDIV and SDIVcc complete with the saturated quotient, and trap on a zero divisor. R375 to R378. -/
def Obligations.Divide : Prop :=
  ∀ (s : State) (rd rs1 : RegNum) (op : Operand2), let a := s.reg rs1
    let b := operand2 s op
    let q : Int := (s.y.toNat * 2 ^ 32 + a.toNat) / b.toNat
    let qs : Int := (s.y.toInt * 2 ^ 32 + a.toNat).tdiv b.toInt
    let ru := BitVec.ofInt 32 (min q (2 ^ 32 - 1))
    let rs := BitVec.ofInt 32 (max (-2 ^ 31) (min qs (2 ^ 31 - 1)))
    (b ≠ 0#32 →
      Completes (.udiv rd rs1 op) s s rd ru
      ∧ Completes (.udivcc rd rs1 op) s (afterResult s ru (decide (2 ^ 32 ≤ q))) rd ru
      ∧ Completes (.sdiv rd rs1 op) s s rd rs
      ∧ Completes (.sdivcc rd rs1 op) s (afterResult s rs (decide (2 ^ 31 ≤ qs ∨ qs < -2 ^ 31))) rd rs)
    ∧ (b = 0#32 → ∀ i ∈ [Instr.udiv rd rs1 op, .udivcc rd rs1 op, .sdiv rd rs1 op, .sdivcc rd rs1 op], Traps i s 0x2A#8)

/-- DIVScc completes with one step of the non-restoring division. R250 to R252. That c0 is the carry-out on the add path and
"no borrow" on the subtract path is the spec's own decision D9 (R252). -/
def Obligations.DivideStep : Prop :=
  ∀ (s : State) (rd rs1 : RegNum) (op : Operand2), let a := s.reg rs1
    let b := operand2 s op
    let t := s.n ^^ s.v
    let y31 := s.y.getLsbD 31
    let r : Nat := (2 * s.y.toNat + a.toNat / 2 ^ 31) % 2 ^ 32
    let alu := BitVec.ofInt 32 (if t = true then (r : Int) + b.toNat else (r : Int) - b.toNat)
    let c0 := if t = true then decide (2 ^ 32 ≤ r + b.toNat) else decide (b.toNat ≤ r)
    let ts := (t && !y31) || (!c0 && (t || !y31))
    Completes (.divscc rd rs1 op) s
      { s with y := alu, n := alu.getLsbD 31, z := decide (alu = 0#32 ∧ t = y31), v := ts ^^ alu.getLsbD 31, c := !ts }
      rd (BitVec.ofNat 32 (2 * a.toNat + if ts = true then 0 else 1))

/-- SCAN completes with the number of the first 1 bit from the top, or the implementation's value for none. R260 to R262. -/
def Obligations.Scan : Prop :=
  ∀ (s : State) (rd rs1 rs2 : RegNum) (simm13 : BitVec 13),
    let leading := fun x : Word => if x = 0#32 then s.cfg.scanNomatch else BitVec.ofNat 32 (31 - x.toNat.log2)
    Completes (.scan rd rs1 (.reg rs2)) s s rd
      (leading (s.reg rs1 ^^^ BitVec.ofInt 32 ((s.reg rs2).toInt / 2)))
    ∧ Completes (.scan rd rs1 (.imm simm13)) s s rd (leading (s.reg rs1 ^^^ BitVec.ofInt 32 simm13.toInt))

/-- UMAC, UMACcc, SMAC and SMACcc complete with the accumulated sum and accrue carry and overflow. R270 to R276. -/
def Obligations.MultiplyAccumulate : Prop :=
  ∀ (s : State) (rd rs1 : RegNum) (op : Operand2), s.cfg.accHiWidth ≤ 32 → let a := s.reg rs1
    let b := operand2 s op
    let w := 64 + s.cfg.accHiWidth
    let acc : Int := (s.accHi.toNat % 2 ^ s.cfg.accHiWidth * 2 ^ 64 + s.y.toNat * 2 ^ 32 + s.accLo.toNat : Nat)
    let u : Int := a.toNat * b.toNat + acc
    let p : Int := a.toInt * b.toInt + (if 2 ^ (w - 1) ≤ acc then acc - 2 ^ w else acc)
    let carry := decide (2 ^ w ≤ u)
    let exceeds := decide (p < -2 ^ (w - 1) ∨ 2 ^ (w - 1) ≤ p)
    let base := fun (x : Int) (ov ca : Bool) => { s with
      accHi := BitVec.ofInt 32 (x / 2 ^ 64 % 2 ^ s.cfg.accHiWidth)
      y := BitVec.ofInt 32 (x / 2 ^ 32)
      accLo := BitVec.ofInt 32 x
      accOverflow := s.accOverflow || ov
      accCarry := s.accCarry || ca }
    let codes := fun (t : State) (x : Int) (v c : Bool) =>
      withFlags t (decide (2 ^ 31 ≤ x % 2 ^ 32)) (decide (x % 2 ^ 32 = 0)) v c
    Completes (.umac rd rs1 op) s (base u false carry) rd (BitVec.ofInt 32 u)
    ∧ Completes (.umaccc rd rs1 op) s (codes (base u false carry) u false carry) rd (BitVec.ofInt 32 u)
    ∧ Completes (.smac rd rs1 op) s (base p exceeds false) rd (BitVec.ofInt 32 p)
    ∧ Completes (.smaccc rd rs1 op) s (codes (base p exceeds false) p exceeds false) rd (BitVec.ofInt 32 p)

/-- The sixteen branches complete by their condition, and annul their delay instruction as the rule says. R400, R401, R420 to
R435. `condDelay` marks the delay slot of a conditional branch (log 25). -/
def Obligations.BranchInstructions : Prop :=
  ∀ (s : State) (a : Bool) (d : BitVec 22), s.condDelay = false →
    Branches (.bne a d) s (!s.z) a d ∧ Branches (.be a d) s s.z a d
    ∧ Branches (.bg a d) s (!(s.z || (s.n ^^ s.v))) a d ∧ Branches (.ble a d) s (s.z || (s.n ^^ s.v)) a d
    ∧ Branches (.bge a d) s (!(s.n ^^ s.v)) a d ∧ Branches (.bl a d) s (s.n ^^ s.v) a d
    ∧ Branches (.bgu a d) s (!(s.c || s.z)) a d ∧ Branches (.bleu a d) s (s.c || s.z) a d
    ∧ Branches (.bcc a d) s (!s.c) a d ∧ Branches (.bcs a d) s s.c a d
    ∧ Branches (.bpos a d) s (!s.n) a d ∧ Branches (.bneg a d) s s.n a d
    ∧ Branches (.bvc a d) s (!s.v) a d ∧ Branches (.bvs a d) s s.v a d
    ∧ (let target := BitVec.ofInt 32 (s.pc.toNat + 4 * d.toInt)
      exec (.ba false d) s = .next { s with pc := s.npc, npc := target, condDelay := false }
      ∧ exec (.ba true d) s = .next { s with pc := target, npc := target + 4#32, condDelay := false }
      ∧ exec (.bn false d) s = .next { s with pc := s.npc, npc := s.npc + 4#32, condDelay := false }
      ∧ exec (.bn true d) s = .next { s with pc := s.npc + 4#32, npc := s.npc + 8#32, condDelay := false })

/-- CALL and JMPL complete with the link register and the target, and a misaligned JMPL traps. R404, R405. -/
def Obligations.CallAndJump : Prop :=
  ∀ (s : State) (disp30 : BitVec 30) (rd rs1 : RegNum) (op : Operand2), s.condDelay = false →
    let ea := effectiveAddress s rs1 op
    (∃ t, exec (.call disp30) s = .next t ∧ t.reg 15#5 = s.pc ∧ OnlyRegisters s t s.window [15#5]
      ∧ t = { s with globals := t.globals, windows := t.windows, pc := s.npc
                     npc := BitVec.ofNat 32 (s.pc.toNat + 4 * disp30.toNat), condDelay := false })
    ∧ (ea.toNat % 4 = 0 → ∃ t, exec (.jmpl rd rs1 op) s = .next t ∧ t.reg rd = shown rd s.pc
      ∧ OnlyRegisters s t s.window [rd]
      ∧ t = { s with globals := t.globals, windows := t.windows, pc := s.npc, npc := ea, condDelay := false })
    ∧ (ea.toNat % 4 ≠ 0 → Traps (.jmpl rd rs1 op) s 0x07#8)

/-- RETT completes with the window, mode, ET and AW restored, and traps or enters error mode elsewhere. R406, R292. -/
def Obligations.ReturnFromTrap : Prop :=
  ∀ (s : State) (rs1 : RegNum) (op : Operand2), s.condDelay = false → s.cwp.toNat < s.cfg.nwindows → s.cfg.nwindows ≤ 32 →
    let ea := effectiveAddress s rs1 op
    let w := (s.cwp.toNat + 1) % s.cfg.nwindows
    (s.et = false ∧ s.sup = true ∧ s.wim.getLsbD w = false ∧ ea.toNat % 4 = 0 →
      exec (.rett rs1 op) s = .next { s with
        pc := s.npc, npc := ea, cwp := BitVec.ofNat 5 w, sup := s.ps, et := true
        aw := if s.cfg.awp = true then s.paw else s.aw, condDelay := false })
    ∧ (s.et = true ∧ s.sup = true → Traps (.rett rs1 op) s 0x02#8)
    ∧ (s.et = true ∧ s.sup = false → Traps (.rett rs1 op) s 0x03#8)
    ∧ (s.et = false ∧ s.sup = false → Traps (.rett rs1 op) s 0x03#8)
    ∧ (s.et = false ∧ s.sup = true ∧ s.wim.getLsbD w = true → Traps (.rett rs1 op) s 0x06#8)
    ∧ (s.et = false ∧ s.sup = true ∧ s.wim.getLsbD w = false ∧ ea.toNat % 4 ≠ 0 → Traps (.rett rs1 op) s 0x07#8)

/-- The forms whose effect the spec leaves undefined are refused by name. spec/93_implementation_defined.md U7, U11, U26 (log
12, 13, 25). -/
def Obligations.RefusedForms : Prop :=
  ∀ (s : State) (a : Bool) (d : BitVec 22) (disp30 : BitVec 30) (rd rs1 : RegNum) (op : Operand2),
    (s.condDelay = true →
      ∀ i ∈ [Instr.ba a d, .bn a d, .bne a d, .be a d, .bg a d, .ble a d, .bge a d, .bl a d, .bgu a d, .bleu a d, .bcc a d,
          .bcs a d, .bpos a d, .bneg a d, .bvc a d, .bvs a d, .call disp30, .jmpl rd rs1 op, .rett rs1 op],
        exec i s = .refused .controlCouple)
    ∧ (s.sup = true → rd ≠ 0#5 → ¬ (s.cfg.pwrpsr = true ∧ rd = s.cfg.wrpsrEtRd) →
      exec (.wrpsr rd rs1 op) s = .refused .wrpsrSelector)
    ∧ (s.cfg.coreWf = true → s.cfg.awp = true → s.sup = true →
      s.cfg.nwindows ≤ (s.reg rs1 ^^^ operand2 s op).toNat / 2 ^ s.cfg.awpLsb % 32 →
      exec (.wrasr s.cfg.asrAwp rs1 op) s = .refused .awpRange)

/-- The sixteen Ticc take their software trap iff their test holds, and otherwise change only the counters. R407. -/
def Obligations.TrapOnCondition : Prop :=
  ∀ (s : State) (rs1 : RegNum) (op : TrapOperand),
    let tt := BitVec.ofNat 8 (128 + (trapNumber s rs1 op).toNat)
    ∀ p ∈ [(Instr.ta rs1 op, true), (.tn rs1 op, false), (.tne rs1 op, !s.z), (.te rs1 op, s.z),
        (.tg rs1 op, !(s.z || (s.n ^^ s.v))), (.tle rs1 op, s.z || (s.n ^^ s.v)), (.tge rs1 op, !(s.n ^^ s.v)),
        (.tl rs1 op, s.n ^^ s.v), (.tgu rs1 op, !(s.c || s.z)), (.tleu rs1 op, s.c || s.z), (.tcc rs1 op, !s.c),
        (.tcs rs1 op, s.c), (.tpos rs1 op, !s.n), (.tneg rs1 op, s.n), (.tvc rs1 op, !s.v), (.tvs rs1 op, s.v)],
      (p.2 = true → Traps p.1 s tt)
      ∧ (p.2 = false → exec p.1 s = .next { s with pc := s.npc, npc := s.npc + 4#32, condDelay := false })

/-- SAVE and RESTORE complete into a valid window, trap into an invalid one, and are refused while AW = 1. R379, R380, R295.
That they are refused while AW = 1, an invalid new window or not, is the model's choice (log 13), by the spec's own decision
of R295 (c), D15. -/
def Obligations.SaveRestore : Prop :=
  ∀ (s : State) (rd rs1 : RegNum) (op : Operand2), s.cwp.toNat < s.cfg.nwindows → s.cfg.nwindows ≤ 32 →
    ∀ p ∈ [(Instr.save rd rs1 op, (s.cwp.toNat + s.cfg.nwindows - 1) % s.cfg.nwindows, 0x05#8),
        (.restore rd rs1 op, (s.cwp.toNat + 1) % s.cfg.nwindows, 0x06#8)],
      (¬ (s.cfg.awp = true ∧ s.aw = true) ∧ s.wim.getLsbD p.2.1 = false → ∃ t, exec p.1 s = .next t
        ∧ t.regIn p.2.1 rd = shown rd (BitVec.ofNat 32 ((s.reg rs1).toNat + (operand2 s op).toNat))
        ∧ OnlyRegisters s t p.2.1 [rd]
        ∧ t = { s with globals := t.globals, windows := t.windows, cwp := BitVec.ofNat 5 p.2.1
                       pc := s.npc, npc := s.npc + 4#32, condDelay := false })
      ∧ (¬ (s.cfg.awp = true ∧ s.aw = true) ∧ s.wim.getLsbD p.2.1 = true → Traps p.1 s p.2.2)
      ∧ (s.cfg.awp = true ∧ s.aw = true → exec p.1 s = .refused .windowShiftInAlternate)

/-- UNIMP and the instructions of the absent floating-point unit and coprocessor trap. R402, R403, R463 to R478, R492 to
R494. -/
def Obligations.AbsentUnits : Prop :=
  ∀ (s : State) (a : Bool) (cond : BitVec 4) (d : BitVec 22) (rd rs1 rs2 : RegNum) (opf : BitVec 9) (op : Operand2),
    Traps (.unimp rd d) s 0x02#8
    ∧ (∀ i ∈ [Instr.fbfcc a cond d, .fpop1 rd rs1 opf rs2, .fpop2 rd rs1 opf rs2, .ldf rd rs1 op, .ldfsr rd rs1 op,
        .lddf rd rs1 op, .stf rd rs1 op, .stfsr rd rs1 op, .stdf rd rs1 op], Traps i s 0x04#8)
    ∧ (∀ i ∈ [Instr.cbccc a cond d, .cpop1 rd rs1 opf rs2, .cpop2 rd rs1 opf rs2, .ldc rd rs1 op, .ldcsr rd rs1 op,
        .lddc rd rs1 op, .stc rd rs1 op, .stcsr rd rs1 op, .stdc rd rs1 op], Traps i s 0x24#8)
    ∧ Traps (.stdfq rd rs1 op) s (if s.sup = true then 0x04#8 else 0x03#8)
    ∧ Traps (.stdcq rd rs1 op) s (if s.sup = true then 0x24#8 else 0x03#8)

/-- RDY, RDPSR, RDWIM and RDTBR complete with the register's word; STBAR completes and changes nothing. R480, R482 to R485.
-/
def Obligations.ReadStateRegisters : Prop :=
  ∀ (s : State) (rd : RegNum), s.cfg.coreWf = true →
    Completes (.rdy rd) s s rd s.y
    ∧ exec .stbar s = .next { s with pc := s.npc, npc := s.npc + 4#32, condDelay := false }
    ∧ (s.sup = true →
      (∃ v, Completes (.rdpsr rd) s s rd v
        ∧ v.toNat / 2 ^ 28 = s.cfg.psrImpl.toNat ∧ v.toNat / 2 ^ 24 % 16 = s.cfg.psrVer.toNat
        ∧ v.getLsbD 23 = s.n ∧ v.getLsbD 22 = s.z ∧ v.getLsbD 21 = s.v ∧ v.getLsbD 20 = s.c
        ∧ (∀ k, 14 ≤ k → k ≤ 19 → v.getLsbD k =
            (s.cfg.awp && ((decide (k = s.cfg.psrAwBit) && s.aw) || (decide (k = s.cfg.psrPawBit) && s.paw))))
        ∧ v.getLsbD 13 = false ∧ v.getLsbD 12 = false ∧ v.toNat / 2 ^ 8 % 16 = s.pil.toNat
        ∧ v.getLsbD 7 = s.sup ∧ v.getLsbD 6 = s.ps ∧ v.getLsbD 5 = s.et ∧ v.toNat % 32 = s.cwp.toNat)
      ∧ Completes (.rdwim rd) s s rd (BitVec.ofNat 32 (s.wim.toNat % 2 ^ s.cfg.nwindows))
      ∧ Completes (.rdtbr rd) s s rd (BitVec.ofNat 32 (s.tba.toNat * 4096 + s.tt.toNat * 16)))

/-- RDASR completes for every register the implementation has and traps for every other number. R481, R55 to R58, R293. -/
def Obligations.ReadAncillary : Prop :=
  ∀ (s : State) (rd rs1 : RegNum), s.cfg.coreWf = true →
    (s.cfg.mac = true →
      Completes (.rdasr rd s.cfg.asrAccHi) s s rd (BitVec.ofNat 32 (s.accHi.toNat % 2 ^ s.cfg.accHiWidth))
      ∧ Completes (.rdasr rd s.cfg.asrAccLo) s s rd s.accLo
      ∧ Completes (.rdasr rd s.cfg.asrAccFlags) s s rd (BitVec.ofNat 32 (2 * s.accOverflow.toNat + s.accCarry.toNat)))
    ∧ (s.cfg.svt = true ∧ s.sup = true → Completes (.rdasr rd 17#5) s s rd (BitVec.ofNat 32 s.svt.toNat))
    ∧ (s.cfg.svt = true ∧ s.sup = false → Traps (.rdasr rd 17#5) s 0x03#8)
    ∧ (s.cfg.awp = true ∧ s.sup = true →
      Completes (.rdasr rd s.cfg.asrAwp) s s rd (BitVec.ofNat 32 (s.awpReg.toNat * 2 ^ s.cfg.awpLsb)))
    ∧ (s.cfg.awp = true ∧ s.sup = false → Traps (.rdasr rd s.cfg.asrAwp) s 0x03#8)
    ∧ (¬ (s.cfg.svt = true ∧ rs1 = 17#5)
        ∧ ¬ (s.cfg.mac = true ∧ rs1 ∈ [s.cfg.asrAccHi, s.cfg.asrAccLo, s.cfg.asrAccFlags])
        ∧ ¬ (s.cfg.awp = true ∧ rs1 = s.cfg.asrAwp) → Traps (.rdasr rd rs1) s 0x02#8)

/-- WRY, WRWIM and WRTBR complete with the written field and change nothing else. R486, R489, R490. -/
def Obligations.WriteStateRegisters : Prop :=
  ∀ (s : State) (rs1 : RegNum) (op : Operand2), s.cfg.nwindows ≤ 32 → let x := s.reg rs1 ^^^ operand2 s op
    exec (.wry rs1 op) s = .next { s with y := x, pc := s.npc, npc := s.npc + 4#32, condDelay := false }
    ∧ (s.sup = true →
      exec (.wrwim rs1 op) s = .next { s with
        wim := BitVec.ofNat 32 (x.toNat % 2 ^ s.cfg.nwindows), pc := s.npc, npc := s.npc + 4#32, condDelay := false }
      ∧ exec (.wrtbr rs1 op) s = .next { s with
        tba := BitVec.ofNat 20 (x.toNat / 4096), pc := s.npc, npc := s.npc + 4#32, condDelay := false })

/-- WRASR completes for every register the implementation has and traps for every other number. R487, R55 to R58, R293. -/
def Obligations.WriteAncillary : Prop :=
  ∀ (s : State) (rd rs1 : RegNum) (op : Operand2), s.cfg.coreWf = true → let x := s.reg rs1 ^^^ operand2 s op
    let f := x.toNat / 2 ^ s.cfg.awpLsb % 32
    (s.cfg.mac = true →
      exec (.wrasr s.cfg.asrAccHi rs1 op) s = .next { s with
        accHi := BitVec.ofNat 32 (x.toNat % 2 ^ s.cfg.accHiWidth), pc := s.npc, npc := s.npc + 4#32, condDelay := false }
      ∧ exec (.wrasr s.cfg.asrAccLo rs1 op) s = .next { s with
        accLo := x, pc := s.npc, npc := s.npc + 4#32, condDelay := false }
      ∧ exec (.wrasr s.cfg.asrAccFlags rs1 op) s = .next { s with
        accOverflow := x.getLsbD 1, accCarry := x.getLsbD 0, pc := s.npc, npc := s.npc + 4#32, condDelay := false })
    ∧ (s.cfg.svt = true ∧ s.sup = true → exec (.wrasr 17#5 rs1 op) s = .next { s with
        svt := x.getLsbD 0, pc := s.npc, npc := s.npc + 4#32, condDelay := false })
    ∧ (s.cfg.svt = true ∧ s.sup = false → Traps (.wrasr 17#5 rs1 op) s 0x03#8)
    ∧ (s.cfg.awp = true ∧ s.sup = true ∧ f < s.cfg.nwindows → exec (.wrasr s.cfg.asrAwp rs1 op) s = .next { s with
        awpReg := BitVec.ofNat 5 f, pc := s.npc, npc := s.npc + 4#32, condDelay := false })
    ∧ (s.cfg.awp = true ∧ s.sup = false → Traps (.wrasr s.cfg.asrAwp rs1 op) s 0x03#8)
    ∧ (¬ (s.cfg.svt = true ∧ rd = 17#5)
        ∧ ¬ (s.cfg.mac = true ∧ rd ∈ [s.cfg.asrAccHi, s.cfg.asrAccLo, s.cfg.asrAccFlags])
        ∧ ¬ (s.cfg.awp = true ∧ rd = s.cfg.asrAwp) → Traps (.wrasr rd rs1 op) s 0x02#8)

/-- WRPSR with rd = 0 completes with every writable field, and traps on a CWP that is no window. R301 (spec/43_awp_wrpsr.md).
-/
def Obligations.WritePsr : Prop :=
  ∀ (s : State) (rs1 : RegNum) (op : Operand2), s.sup = true → let x := s.reg rs1 ^^^ operand2 s op
    (x.toNat % 32 < s.cfg.nwindows → exec (.wrpsr 0#5 rs1 op) s = .next { s with
      n := x.getLsbD 23, z := x.getLsbD 22, v := x.getLsbD 21, c := x.getLsbD 20
      pil := BitVec.ofNat 4 (x.toNat / 256), sup := x.getLsbD 7, ps := x.getLsbD 6, et := x.getLsbD 5
      cwp := BitVec.ofNat 5 x.toNat
      aw := if s.cfg.awp = true then x.getLsbD s.cfg.psrAwBit else s.aw
      paw := if s.cfg.awp = true then x.getLsbD s.cfg.psrPawBit else s.paw
      pc := s.npc, npc := s.npc + 4#32, condDelay := false })
    ∧ (s.cfg.nwindows ≤ x.toNat % 32 → Traps (.wrpsr 0#5 rs1 op) s 0x02#8)
    ∧ (s.cfg.coreWf = true → ∀ t, exec (.wrpsr 0#5 rs1 op) s = .next t →
      t.psr.getLsbD 13 = false ∧ t.psr.getLsbD 12 = false ∧ t.psr.toNat / 2 ^ 24 = s.psr.toNat / 2 ^ 24)

/-- WRPSR with the ET selector writes ET and no other field, whatever the value offers for CWP. R302 (spec/43_awp_wrpsr.md).
-/
def Obligations.WritePsrEtOnly : Prop :=
  ∀ (s : State) (rs1 : RegNum) (op : Operand2), s.sup = true → s.cfg.pwrpsr = true → s.cfg.wrpsrEtRd ≠ 0#5 →
    exec (.wrpsr s.cfg.wrpsrEtRd rs1 op) s = .next { s with
      et := (s.reg rs1 ^^^ operand2 s op).getLsbD 5, pc := s.npc, npc := s.npc + 4#32, condDelay := false }
    ∧ (∃ t, exec (.wrpsr s.cfg.wrpsrEtRd 0#5 (.imm 0#13)) s = .next t ∧ t.et = false)
    ∧ (∃ t, exec (.wrpsr s.cfg.wrpsrEtRd 0#5 (.imm 0x20#13)) s = .next t ∧ t.et = true)

/-- Every privileged instruction takes privileged_instruction in user mode. R310, R531. RETT in the delay slot of a
conditional branch is refused (log 25). -/
def Obligations.PrivilegedInUserMode : Prop :=
  ∀ (s : State) (rd rs1 rs2 : RegNum) (asi : Asi) (op : Operand2), s.sup = false →
    (∀ i ∈ [Instr.rdpsr rd, .rdwim rd, .rdtbr rd, .wrpsr rd rs1 op, .wrwim rs1 op, .wrtbr rs1 op, .stdfq rd rs1 op,
        .stdcq rd rs1 op], Traps i s 0x03#8)
    ∧ (s.cfg.npasi = false ∨ asi.toNat < 0x80 →
      ∀ i ∈ [Instr.ldsba rd rs1 asi rs2, .ldsha rd rs1 asi rs2, .lduba rd rs1 asi rs2, .lduha rd rs1 asi rs2,
          .lda rd rs1 asi rs2, .ldda rd rs1 asi rs2, .stba rd rs1 asi rs2, .stha rd rs1 asi rs2, .sta rd rs1 asi rs2,
          .stda rd rs1 asi rs2, .ldstuba rd rs1 asi rs2, .swapa rd rs1 asi rs2], Traps i s 0x03#8)
    ∧ (s.condDelay = false → Traps (.rett rs1 op) s 0x03#8)
    ∧ (s.cfg.coreWf = true →
      (s.cfg.svt = true → Traps (.rdasr rd 17#5) s 0x03#8 ∧ Traps (.wrasr 17#5 rs1 op) s 0x03#8)
      ∧ (s.cfg.awp = true → Traps (.rdasr rd s.cfg.asrAwp) s 0x03#8 ∧ Traps (.wrasr s.cfg.asrAwp rs1 op) s 0x03#8))

/-- FLUSH completes, and forgets exactly the marks of the doubleword it flushes; a fetch is refused iff its mark is left.
R491, R164. The marks of stored words are the model's own state (log 24). -/
def Obligations.Flush : Prop :=
  (∀ (s : State) (rs1 : RegNum) (op : Operand2), let ea := effectiveAddress s rs1 op
    ∃ t, exec (.flush rs1 op) s = .next t
      ∧ t = { s with stale := t.stale, flushed := t.flushed, pc := s.npc, npc := s.npc + 4#32, condDelay := false }
      ∧ (∀ pa, probe s ea = some pa → t.flushed = s.flushed ∧ ∀ a, a ∈ t.stale ↔ a ∈ s.stale ∧ a / 8 ≠ pa / 8)
      ∧ (probe s ea = none → t.stale = s.stale
        ∧ ∀ p, p ∈ t.flushed ↔ p ∈ s.flushed ∨ (p.1 ∈ s.stale ∧ p.2 = ea.toNat / 8))
      ∧ (TranslationOff s → probe s ea = some ea.toNat))
  ∧ ∀ (s t : State) (pa : Nat), locate s s.pc (fetchAsi s) .fetch = .ok pa t → t.inject ≠ some .fetch →
    (fetch s = .refused .staleFetch ↔
      pa - pa % 4 ∈ t.stale ∧ (pa - pa % 4, s.pc.toNat / 8) ∉ t.flushed)

/-- The loads, also of alternate spaces, complete with the bytes of memory that the access reaches. R451 to R456, R312 to
R317, R110. -/
def Obligations.LoadInstructions : Prop :=
  (∀ (s t : State) (rd rs1 : RegNum) (op : Operand2) (pa : Nat), let ea := effectiveAddress s rs1 op
    Reaches s (dataAsi s) ea .load pa t →
    OnlyTranslation s t
    ∧ Completes (.ldsb rd rs1 op) s t rd (BitVec.ofInt 32 (BitVec.ofNat 8 (bigEndian t pa 1)).toInt)
    ∧ Completes (.ldub rd rs1 op) s t rd (BitVec.ofNat 32 (bigEndian t pa 1))
    ∧ (ea.toNat % 2 = 0 →
      Completes (.ldsh rd rs1 op) s t rd (BitVec.ofInt 32 (BitVec.ofNat 16 (bigEndian t pa 2)).toInt)
      ∧ Completes (.lduh rd rs1 op) s t rd (BitVec.ofNat 32 (bigEndian t pa 2)))
    ∧ (ea.toNat % 4 = 0 → Completes (.ld rd rs1 op) s t rd (BitVec.ofNat 32 (bigEndian t pa 4)))
    ∧ (ea.toNat % 8 = 0 → rd.toNat % 2 = 0 → 2 ≤ s.cfg.nwindows → s.cfg.nwindows ≤ 32 →
      LoadsPair (.ldd rd rs1 op) s t rd (BitVec.ofNat 32 (bigEndian t pa 4)) (BitVec.ofNat 32 (bigEndian t (pa + 4) 4))))
  ∧ (∀ (s t : State) (rd rs1 : RegNum) (asi : Asi) (rs2 : RegNum) (pa : Nat), AsiAllowed s asi →
    let ea := alternateAddress s rs1 rs2
    Reaches s asi ea .load pa t →
    OnlyTranslation s t
    ∧ Completes (.ldsba rd rs1 asi rs2) s t rd (BitVec.ofInt 32 (BitVec.ofNat 8 (bigEndian t pa 1)).toInt)
    ∧ Completes (.lduba rd rs1 asi rs2) s t rd (BitVec.ofNat 32 (bigEndian t pa 1))
    ∧ (ea.toNat % 2 = 0 →
      Completes (.ldsha rd rs1 asi rs2) s t rd (BitVec.ofInt 32 (BitVec.ofNat 16 (bigEndian t pa 2)).toInt)
      ∧ Completes (.lduha rd rs1 asi rs2) s t rd (BitVec.ofNat 32 (bigEndian t pa 2)))
    ∧ (ea.toNat % 4 = 0 → Completes (.lda rd rs1 asi rs2) s t rd (BitVec.ofNat 32 (bigEndian t pa 4)))
    ∧ (ea.toNat % 8 = 0 → rd.toNat % 2 = 0 → 2 ≤ s.cfg.nwindows → s.cfg.nwindows ≤ 32 →
      LoadsPair (.ldda rd rs1 asi rs2) s t rd (BitVec.ofNat 32 (bigEndian t pa 4))
        (BitVec.ofNat 32 (bigEndian t (pa + 4) 4))))

/-- The stores, also of alternate spaces, complete with their bytes in memory and no other byte changed. R457 to R460, R318
to R321, R110. The marks of stored words are the model's own state (log 24). -/
def Obligations.StoreInstructions : Prop :=
  (∀ (s t : State) (rd rs1 : RegNum) (op : Operand2) (pa : Nat), Inv s → let ea := effectiveAddress s rs1 op
    Reaches s (dataAsi s) ea .store pa t →
    OnlyTranslation s t
    ∧ Stores (.stb rd rs1 op) s t pa 1 ((s.reg rd).toNat % 256)
    ∧ (ea.toNat % 2 = 0 → Stores (.sth rd rs1 op) s t pa 2 ((s.reg rd).toNat % 65536))
    ∧ (ea.toNat % 4 = 0 → Stores (.st rd rs1 op) s t pa 4 (s.reg rd).toNat)
    ∧ (ea.toNat % 8 = 0 → rd.toNat % 2 = 0 →
      Stores (.std rd rs1 op) s t pa 8 ((s.reg rd).toNat * 2 ^ 32 + (s.reg (rd + 1#5)).toNat)))
  ∧ (∀ (s t : State) (rd rs1 : RegNum) (asi : Asi) (rs2 : RegNum) (pa : Nat), Inv s → AsiAllowed s asi →
    let ea := alternateAddress s rs1 rs2
    Reaches s asi ea .store pa t →
    OnlyTranslation s t
    ∧ Stores (.stba rd rs1 asi rs2) s t pa 1 ((s.reg rd).toNat % 256)
    ∧ (ea.toNat % 2 = 0 → Stores (.stha rd rs1 asi rs2) s t pa 2 ((s.reg rd).toNat % 65536))
    ∧ (ea.toNat % 4 = 0 → Stores (.sta rd rs1 asi rs2) s t pa 4 (s.reg rd).toNat)
    ∧ (ea.toNat % 8 = 0 → rd.toNat % 2 = 0 →
      Stores (.stda rd rs1 asi rs2) s t pa 8 ((s.reg rd).toNat * 2 ^ 32 + (s.reg (rd + 1#5)).toNat)))

/-- LDSTUB, SWAP, LDSTUBA and SWAPA complete with the old value in r[rd] and the new one in memory. R461, R462, R324, R325.
The marks of stored words are the model's own state (log 24). -/
def Obligations.AtomicInstructions : Prop :=
  (∀ (s t : State) (rd rs1 : RegNum) (op : Operand2) (pa : Nat), Inv s → let ea := effectiveAddress s rs1 op
    Reaches s (dataAsi s) ea .atomic pa t →
    OnlyTranslation s t
    ∧ Exchanges (.ldstub rd rs1 op) s t pa 1 0xFF rd (BitVec.ofNat 32 (bigEndian t pa 1))
    ∧ (ea.toNat % 4 = 0 →
      Exchanges (.swap rd rs1 op) s t pa 4 (s.reg rd).toNat rd (BitVec.ofNat 32 (bigEndian t pa 4))))
  ∧ (∀ (s t : State) (rd rs1 : RegNum) (asi : Asi) (rs2 : RegNum) (pa : Nat), Inv s → AsiAllowed s asi →
    let ea := alternateAddress s rs1 rs2
    Reaches s asi ea .atomic pa t →
    OnlyTranslation s t
    ∧ Exchanges (.ldstuba rd rs1 asi rs2) s t pa 1 0xFF rd (BitVec.ofNat 32 (bigEndian t pa 1))
    ∧ (ea.toNat % 4 = 0 →
      Exchanges (.swapa rd rs1 asi rs2) s t pa 4 (s.reg rd).toNat rd (BitVec.ofNat 32 (bigEndian t pa 4))))

/-- A misaligned access traps before anything is translated, read or written, and so does an odd register pair. R115, R311,
R450, R456, R460. -/
def Obligations.MisalignedTraps : Prop :=
  ∀ (s : State) (rd rs1 : RegNum) (op : Operand2) (asi : Asi) (rs2 : RegNum), let ea := effectiveAddress s rs1 op
    let eb := alternateAddress s rs1 rs2
    (ea.toNat % 2 ≠ 0 → ∀ i ∈ [Instr.ldsh rd rs1 op, .lduh rd rs1 op, .sth rd rs1 op], Traps i s 0x07#8)
    ∧ (ea.toNat % 4 ≠ 0 → ∀ i ∈ [Instr.ld rd rs1 op, .st rd rs1 op, .swap rd rs1 op], Traps i s 0x07#8)
    ∧ (ea.toNat % 8 ≠ 0 → rd.toNat % 2 = 0 → ∀ i ∈ [Instr.ldd rd rs1 op, .std rd rs1 op], Traps i s 0x07#8)
    ∧ (rd.toNat % 2 = 1 → ∀ i ∈ [Instr.ldd rd rs1 op, .std rd rs1 op], Traps i s 0x02#8)
    ∧ (AsiAllowed s asi →
      (eb.toNat % 2 ≠ 0 → ∀ i ∈ [Instr.ldsha rd rs1 asi rs2, .lduha rd rs1 asi rs2, .stha rd rs1 asi rs2], Traps i s 0x07#8)
      ∧ (eb.toNat % 4 ≠ 0 → ∀ i ∈ [Instr.lda rd rs1 asi rs2, .sta rd rs1 asi rs2, .swapa rd rs1 asi rs2], Traps i s 0x07#8)
      ∧ (eb.toNat % 8 ≠ 0 → rd.toNat % 2 = 0 → ∀ i ∈ [Instr.ldda rd rs1 asi rs2, .stda rd rs1 asi rs2], Traps i s 0x07#8)
      ∧ (rd.toNat % 2 = 1 → ∀ i ∈ [Instr.ldda rd rs1 asi rs2, .stda rd rs1 asi rs2], Traps i s 0x02#8))

/-- A data access that faults traps with no register changed, and no byte of memory but an entry that a walk marked. R450,
R311, R502. Which registers a fault records is log 19; that a bus error takes its trap after the translation and is recorded
in neither FSR nor FAR is log 26. -/
def Obligations.FaultedAccess : Prop :=
  ∀ (s u : State) (rd rs1 rs2 : RegNum) (op : Operand2) (asi : Asi) (tt : TrapType),
    let ea := effectiveAddress s rs1 op
    let eb := alternateAddress s rs1 rs2
    (∀ (a : Asi) (va : Word) (kind : AccessKind), resolve s a va kind = .trap tt u →
      OnlyFaultStatus s u ∧ (Inv s → ∀ b, OutsideEntry s va b → u.byteAt b = s.byteAt b))
    ∧ (TranslationOff s → s.inject = some .data → ∀ (a : Asi) (va : Word) (kind : AccessKind), isMemoryAsi a = true →
      s.cfg.physExists va.toNat = true → resolve s a va kind = .trap 0x29#8 { s with inject := none })
    ∧ (resolve s (dataAsi s) ea .load = .trap tt u →
      (∀ i ∈ [Instr.ldsb rd rs1 op, .ldub rd rs1 op], exec i s = .next (u.raise tt))
      ∧ (ea.toNat % 2 = 0 → ∀ i ∈ [Instr.ldsh rd rs1 op, .lduh rd rs1 op], exec i s = .next (u.raise tt))
      ∧ (ea.toNat % 4 = 0 → exec (.ld rd rs1 op) s = .next (u.raise tt))
      ∧ (ea.toNat % 8 = 0 → rd.toNat % 2 = 0 → exec (.ldd rd rs1 op) s = .next (u.raise tt)))
    ∧ (resolve s (dataAsi s) ea .store = .trap tt u → exec (.stb rd rs1 op) s = .next (u.raise tt)
      ∧ (ea.toNat % 2 = 0 → exec (.sth rd rs1 op) s = .next (u.raise tt))
      ∧ (ea.toNat % 4 = 0 → exec (.st rd rs1 op) s = .next (u.raise tt))
      ∧ (ea.toNat % 8 = 0 → rd.toNat % 2 = 0 → exec (.std rd rs1 op) s = .next (u.raise tt)))
    ∧ (resolve s (dataAsi s) ea .atomic = .trap tt u → exec (.ldstub rd rs1 op) s = .next (u.raise tt)
      ∧ (ea.toNat % 4 = 0 → exec (.swap rd rs1 op) s = .next (u.raise tt)))
    ∧ (AsiAllowed s asi →
      (resolve s asi eb .load = .trap tt u →
        (∀ i ∈ [Instr.ldsba rd rs1 asi rs2, .lduba rd rs1 asi rs2], exec i s = .next (u.raise tt))
        ∧ (eb.toNat % 2 = 0 → ∀ i ∈ [Instr.ldsha rd rs1 asi rs2, .lduha rd rs1 asi rs2], exec i s = .next (u.raise tt))
        ∧ (eb.toNat % 4 = 0 → exec (.lda rd rs1 asi rs2) s = .next (u.raise tt))
        ∧ (eb.toNat % 8 = 0 → rd.toNat % 2 = 0 → exec (.ldda rd rs1 asi rs2) s = .next (u.raise tt)))
      ∧ (resolve s asi eb .store = .trap tt u → exec (.stba rd rs1 asi rs2) s = .next (u.raise tt)
        ∧ (eb.toNat % 2 = 0 → exec (.stha rd rs1 asi rs2) s = .next (u.raise tt))
        ∧ (eb.toNat % 4 = 0 → exec (.sta rd rs1 asi rs2) s = .next (u.raise tt))
        ∧ (eb.toNat % 8 = 0 → rd.toNat % 2 = 0 → exec (.stda rd rs1 asi rs2) s = .next (u.raise tt)))
      ∧ (resolve s asi eb .atomic = .trap tt u → exec (.ldstuba rd rs1 asi rs2) s = .next (u.raise tt)
        ∧ (eb.toNat % 4 = 0 → exec (.swapa rd rs1 asi rs2) s = .next (u.raise tt))))

/-- The loads and stores of a word, and of a timer's doubleword, read and write the registers of an address space. R122,
R123, R134, R149, R316, R317, R320, R321, R566. The refusals are spec/93_implementation_defined.md U16 (log 16); a store to
FSR or FAR is ignored (log 21); the dropped bits are U18 and U24. -/
def Obligations.RegisterAccess : Prop :=
  (∀ (s t : State) (rd rs1 : RegNum) (asi : Asi) (rs2 : RegNum) (r : Register), AsiAllowed s asi →
    isMemoryAsi asi = false → isBypassAsi s.cfg asi = false → let ea := alternateAddress s rs1 rs2
    registerAt s.cfg asi ea = some r →
    (ea.toNat % 4 = 0 →
      (∀ v, readRegister s r = .ok v t → exec (.lda rd rs1 asi rs2) s = .next (t.setReg rd v).advance)
      ∧ (writeRegister s r (s.reg rd) = .ok () t → exec (.sta rd rs1 asi rs2) s = .next t.advance)
      ∧ ∀ i ∈ [Instr.ldsba rd rs1 asi rs2, .lduba rd rs1 asi rs2, .ldsha rd rs1 asi rs2, .lduha rd rs1 asi rs2,
          .stba rd rs1 asi rs2, .stha rd rs1 asi rs2, .ldstuba rd rs1 asi rs2, .swapa rd rs1 asi rs2],
        exec i s = .refused .registerWidth)
    ∧ (ea.toNat % 8 = 0 → rd.toNat % 2 = 0 →
      (∀ n, r = .timer n 0 → ∀ u,
        (∀ x y, readRegister s (.timer n 0) = .ok x u → readRegister u (.timer n 4) = .ok y t →
          exec (.ldda rd rs1 asi rs2) s = .next ((t.setReg rd x).setReg (rd + 1#5) y).advance)
        ∧ (writeRegister s (.timer n 0) (s.reg rd) = .ok () u → writeRegister u (.timer n 4) (s.reg (rd + 1#5)) = .ok () t →
          exec (.stda rd rs1 asi rs2) s = .next t.advance))
      ∧ ((∀ n, r ≠ .timer n 0) → ∀ i ∈ [Instr.ldda rd rs1 asi rs2, .stda rd rs1 asi rs2],
        exec i s = .refused .registerWidth)))
  ∧ (∀ (s : State) (ea x : Word), s.cfg.mmu = .v8ref ∨ s.cfg.mmu = .v8eref →
    registerAt s.cfg 0x04#8 ea = some (.mmu ea)
    ∧ (ea.toNat / 256 % 16 = 0 →
      (∃ v, readRegister s (.mmu ea) = .ok v s ∧ v.toNat = s.cfg.mmuImpl.toNat * 2 ^ 28 + s.cfg.mmuVer.toNat * 2 ^ 24
        + 2 * s.mmuNoFault.toNat + s.mmuEnable.toNat)
      ∧ writeRegister s (.mmu ea) x = .ok () { s with mmuEnable := x.getLsbD 0, mmuNoFault := x.getLsbD 1 })
    ∧ (ea.toNat / 256 % 16 = 1 →
      readRegister s (.mmu ea) = .ok (BitVec.ofNat 32 (4 * s.ctp.toNat)) s
      ∧ writeRegister s (.mmu ea) x = .ok () { s with ctp := BitVec.ofNat 30 (x.toNat / 4) })
    ∧ (ea.toNat / 256 % 16 = 2 →
      readRegister s (.mmu ea) = .ok (BitVec.ofNat 32 s.ctx.toNat) s
      ∧ writeRegister s (.mmu ea) x = .ok () { s with ctx := BitVec.ofNat 7 (x.toNat % 2 ^ s.cfg.ctxBits) })
    ∧ (ea.toNat / 256 % 16 = 3 →
      readRegister s (.mmu ea) = .ok s.fsr { s with fsr := 0#32 } ∧ writeRegister s (.mmu ea) x = .ok () s)
    ∧ (ea.toNat / 256 % 16 = 4 →
      readRegister s (.mmu ea) = .ok s.far s ∧ writeRegister s (.mmu ea) x = .ok () s))
  ∧ (∀ (s : State) (n : Nat) (e : TlbEntry) (x : Word), s.tlb[n]? = some e →
    readRegister s (.descriptor n 0) = .ok e.word0 s
    ∧ readRegister s (.descriptor n 1) = .ok e.word1 s
    ∧ readRegister s (.descriptor n 2) = .ok (BitVec.ofNat 32 (e.lb.toNat * 2 ^ s.cfg.tlbLbBit)) s
    ∧ (∃ v, writeRegister s (.descriptor n 0) x = .ok () { s with tlb := s.tlb.set n { e with word0 := v } }
      ∧ ∀ k, v.getLsbD k = (x.getLsbD k && decide (k < 8 ∨ k + 4 < s.cfg.paBits)))
    ∧ (∃ v, writeRegister s (.descriptor n 1) x = .ok () { s with tlb := s.tlb.set n { e with word1 := v } }
      ∧ ∀ k, v.getLsbD k = (x.getLsbD k && !decide (3 + s.cfg.ctxBits ≤ k ∧ k ≤ 9)))
    ∧ writeRegister s (.descriptor n 2) x
      = .ok () { s with tlb := s.tlb.set n { e with lb := x.getLsbD s.cfg.tlbLbBit } })
  ∧ (∀ (s : State) (n k : Nat), s.cfg.wf = true → s.cfg.mmu = .v8eref → n < s.cfg.nTlb → k < 4 →
    s.cfg.tlbBase + 4096 ≤ 2 ^ 32 →
    registerAt s.cfg s.cfg.tlbAsi (BitVec.ofNat 32 (s.cfg.tlbBase + 16 * n + 4 * k)) = some (.descriptor n k))
  ∧ (∀ (s : State) (slot : Nat) (h : Handler) (x : Word), s.handlers[15 * (slot / 16) + slot % 16 - 1]? = some h →
    (∃ v, readRegister s (.handler slot) = .ok v s
      ∧ v.toNat = 16 * h.inv.toNat + 4 * h.width.toNat + 2 * h.en.toNat + h.buf.toNat)
    ∧ writeRegister s (.handler slot) x = .ok () { s with
        handlers := s.handlers.set (15 * (slot / 16) + slot % 16 - 1) { h with
          inv := x.getLsbD 4, width := BitVec.ofNat 2 (x.toNat / 4), en := x.getLsbD 1, buf := x.getLsbD 0 } })

/-- Without translation every memory address is physical, and the bypass spaces bypass. R155 and the bypass spaces of R101.
-/
def Obligations.UntranslatedAccess : Prop :=
  ∀ (s : State) (ea : Word) (asi : Asi) (kind : AccessKind), s.inject ≠ some .data →
    (TranslationOff s → isMemoryAsi asi = true → s.cfg.physExists ea.toNat = true → Reaches s asi ea kind ea.toNat s)
    ∧ (s.cfg.mmu = .v8ref ∨ s.cfg.mmu = .v8eref → asi.toNat / 16 = 2 →
      s.cfg.physExists (asi.toNat % 16 * 2 ^ 32 + ea.toNat) = true →
      Reaches s asi ea kind (asi.toNat % 16 * 2 ^ 32 + ea.toNat) s)

/-- With cacheability control an address and the one 2^31 above it are the same location. R157 (spec/20_memory.md). -/
def Obligations.CacheabilityAlias : Prop :=
  ∀ (s : State) (ea : Word) (asi : Asi) (kind : AccessKind), s.inject ≠ some .data → s.cfg.mmu = .cacheability →
    isMemoryAsi asi = true →
    Reaches s asi ea kind (ea.toNat % 2 ^ 31) s
    ∧ ∀ pa t, Reaches s asi ea kind pa t ↔ Reaches s asi (ea + 0x80000000#32) kind pa t

/-- What each ACC value allows the user and the supervisor. R141, which the spec marks as general knowledge (log 4). -/
def Obligations.AccessPermissions : Prop :=
  (∀ p ∈ [(0#3, (true, false, false), (true, false, false)), (1#3, (true, true, false), (true, true, false)),
      (2#3, (true, false, true), (true, false, true)), (3#3, (true, true, true), (true, true, true)),
      (4#3, (false, false, true), (false, false, true)), (5#3, (true, false, false), (true, true, false)),
      (6#3, (false, false, false), (true, false, true)), (7#3, (false, false, false), (true, true, true))],
    (accAllows p.1 false .load, accAllows p.1 false .store, accAllows p.1 false .fetch) = p.2.1
    ∧ (accAllows p.1 true .load, accAllows p.1 true .store, accAllows p.1 true .fetch) = p.2.2)
  ∧ (∀ (acc : BitVec 3) (sup : Bool), accAllows acc sup .atomic = (accAllows acc sup .load && accAllows acc sup .store))
  ∧ (asiSupervisor 0x08#8, asiSupervisor 0x0A#8, asiSupervisor 0x09#8, asiSupervisor 0x0B#8) = (false, false, true, true)

/-- An access goes to the page of its descriptor, faults on its permissions, walks the tables, or misses. R140, R146, R147,
R150 to R152, R158. A fault is recorded and taken for either value of NF (log 23); what it records is log 19; without a
hardware walk R and M are set in the descriptor alone (U21, log 20), and the refusals are U22 and log 22; the TLB of the V8
MMU is log 18; which unlocked descriptor is replaced is a free value (U23). The KE that word 1 holds for a page of level 0, 1
or 2 is the 0 of log 42, a choice of the model. -/
def Obligations.TranslatedAccess : Prop :=
  (∀ (e : TlbEntry) (va : Word) (ctx : BitVec 7) (ppn : BitVec 24), let ol := e.word0.toNat % 4
    (e.matches va ctx = true ↔ e.word1.getLsbD 1 = true
      ∧ (e.word1.getLsbD 0 = true ∨ e.word1.toNat / 8 % 128 = ctx.toNat)
      ∧ (ol = 3 → e.word1.toNat / 2 ^ 12 = va.toNat / 2 ^ 12
        ∧ (e.word1.getLsbD 2 = true → e.word1.toNat / 2 ^ 10 % 4 = va.toNat / 2 ^ 10 % 4))
      ∧ (ol = 2 → e.word1.toNat / 2 ^ 18 = va.toNat / 2 ^ 18)
      ∧ (ol = 1 → e.word1.toNat / 2 ^ 24 = va.toNat / 2 ^ 24))
    ∧ e.ol.toNat = ol
    ∧ (pageAddress ppn 3#2 va).toNat = ppn.toNat * 2 ^ 12 + va.toNat % 2 ^ 12
    ∧ (pageAddress ppn 2#2 va).toNat = ppn.toNat / 2 ^ 6 * 2 ^ 18 + va.toNat % 2 ^ 18
    ∧ (pageAddress ppn 1#2 va).toNat = ppn.toNat / 2 ^ 12 * 2 ^ 24 + va.toNat % 2 ^ 24
    ∧ (pageAddress ppn 0#2 va).toNat = ppn.toNat / 2 ^ 20 * 2 ^ 32 + va.toNat)
  ∧ ∀ (s : State) (va : Word) (asi : Asi) (kind : AccessKind), s.cfg.mmu = .v8ref ∨ s.cfg.mmu = .v8eref →
    s.mmuEnable = true →
    let sup := asiSupervisor asi
    let walks := s.cfg.mmu = .v8ref ∨ s.cfg.tableWalk ≠ .software
    let page := fun (w : Word) (level : BitVec 2) => pageAddress (ppnField (s.cfg.dropPpn w)) level va
    let ft := fun w : Word => if sup = false ∧ accAllows (accField w) true kind = true then 3 else 2
    (∀ (k : Nat) (e : TlbEntry), s.tlb[k]? = some e →
      (∀ j e', s.tlb[j]? = some e' → (e'.matches va s.ctx = true ↔ j = k)) →
      (accAllows (accField e.word0) sup kind = true → ∃ t, translate s va asi kind = .ok (page e.word0 e.ol) t
        ∧ t = { s with tlb := s.tlb.set k { e with word0 := marked e.word0 kind }, mem := t.mem }
        ∧ (¬ walks ∨ marked e.word0 kind = e.word0 → t.mem = s.mem)
        ∧ (Inv s → walks → marked e.word0 kind ≠ e.word0 → ∀ addr pte level ke,
          walk s va s.cfg.v8e = .entry addr pte level ke → t.wordAt addr = marked pte kind ∧ MemoryOutside s t addr 4))
      ∧ (accAllows (accField e.word0) sup kind = false →
        ∃ t, MmuFaults s va asi kind (ft e.word0) e.ol.toNat t ∧ t = { s with fsr := t.fsr, far := t.far }))
    ∧ (∀ (j k : Nat) (e e' : TlbEntry), j ≠ k → s.tlb[j]? = some e → s.tlb[k]? = some e' → e.matches va s.ctx = true →
      e'.matches va s.ctx = true → translate s va asi kind = .refused .multipleTlbMatch)
    ∧ ((∀ e ∈ s.tlb, e.matches va s.ctx = false) →
      (¬ walks → translate s va asi kind = if kind = .fetch then .trap 0x3C#8 s else .trap 0x2C#8 { s with far := va })
      ∧ (walks →
        (walk s va s.cfg.v8e = .misaligned → translate s va asi kind = .refused .misalignedTable)
        ∧ (∀ f level, walk s va s.cfg.v8e = .fault f level →
          ∃ t, MmuFaults s va asi kind f.toNat level.toNat t ∧ t = { s with fsr := t.fsr, far := t.far })
        ∧ ∀ addr pte level ke, walk s va s.cfg.v8e = .entry addr pte level ke →
          let word0 := s.cfg.dropPpn (BitVec.ofNat 32 (pte.toNat / 4 * 4 + level.toNat))
          let word1 := BitVec.ofNat 32 (va.toNat / 2 ^ 10 * 2 ^ 10 + s.ctx.toNat * 8 + ke.toNat * 4 + 2 + pte.toNat % 2)
          let entered := fun (t : State) (w : Word) =>
            ((∀ e ∈ s.tlb, e.lb = true) → t.tlb = s.tlb)
            ∧ ((∃ e ∈ s.tlb, e.lb = false) →
              ∃ k e, s.tlb[k]? = some e ∧ e.lb = false ∧ t.tlb = s.tlb.set k ⟨w, word1, false⟩)
          (accAllows (accField pte) sup kind = true → ∃ t, translate s va asi kind = .ok (page pte level) t
            ∧ OnlyTranslation s t ∧ entered t (marked word0 kind)
            ∧ (Inv s → t.wordAt addr = marked pte kind ∧ MemoryOutside s t addr 4))
          ∧ (accAllows (accField pte) sup kind = false → ∃ t, MmuFaults s va asi kind (ft pte) level.toNat t
            ∧ t = { s with fsr := t.fsr, far := t.far, tlb := t.tlb, freeCount := t.freeCount } ∧ entered t word0)))

/-- A translation changes in memory only the page table entry its walk ends at, where the tables say (KE = 0 of a large page
is the choice of log 42). R135, R136, R139, R140, R147, R152, R158. The walk writes R and M into the entry in memory (log
20); what ET = 3 is in the V8 MMU is log 18, and a table pointer at level 3 is FT 4 by R135 and R152 and FT 1 by U42, so the
implementation has either (log 22). That a walk which ends at a page of level 0, 1 or 2 gives KE = 0 is a choice of the model
and no rule of the spec (log 42): R147 takes KE from the level-2 table pointer that was read last, and such a walk reads
none. -/
def Obligations.TranslationFrame : Prop :=
  (∀ (s t : State) (asi : Asi) (ea : Word) (kind : AccessKind) (pa : Nat), Inv s → Reaches s asi ea kind pa t →
    OnlyTranslation s t ∧ pa % 4096 = ea.toNat % 4096 ∧ Memory.wf t.mem = true
    ∧ ∀ a, OutsideEntry s ea a → t.byteAt a = s.byteAt a)
  ∧ ∀ (s : State) (va : Word),
    let table := fun w : Word => if s.cfg.mmu = .v8eref then w.toNat / 16 * 256 else w.toNat / 4 * 64
    let a0 := s.ctp.toNat * 64 + 4 * s.ctx.toNat
    let t1 := table (s.wordAt a0)
    let a1 := t1 + 4 * (va.toNat / 2 ^ 24)
    let t2 := table (s.wordAt a1)
    let a2 := t2 + 4 * (va.toNat / 2 ^ 18 % 64)
    let ke := decide (s.cfg.mmu = .v8eref) && (s.wordAt a2).getLsbD 2
    let t3 := table (s.wordAt a2)
    let a3 := t3 + 4 * (if ke = true then va.toNat / 2 ^ 10 % 256 else va.toNat / 2 ^ 12 % 64)
    let isTable := fun a : Nat => (s.wordAt a).toNat % 4 = 1
    TableAt s (s.ctp.toNat * 64) (max 64 (4 * 2 ^ s.cfg.ctxBits)) a0 → EndsAt s va a0 0#2 false
    ∧ (isTable a0 → TableAt s t1 1024 a1 → EndsAt s va a1 1#2 false
      ∧ (isTable a1 → TableAt s t2 256 a2 → EndsAt s va a2 2#2 false
        ∧ (isTable a2 → TableAt s t3 (if ke = true then 1024 else 256) a3 → EndsAt s va a3 3#2 ke
          ∧ (isTable a3 → walk s va s.cfg.v8e = .fault s.cfg.ptdFault 3#2
            ∧ (s.cfg.wf = true → s.cfg.ptdFault = 4#3 ∨ s.cfg.ptdFault = 1#3)))))

/-- What a trap entry saves, sets and leaves alone. R510, which the spec marks as general knowledge but for the two lines on
AW (log 4). -/
def Obligations.TrapEntry : Prop :=
  ∀ (s : State) (tt : TrapType),
    (s.et = true → TrapTaken s (s.raise tt) tt)
    ∧ (s.et = false → s.raise tt = { s with tt := tt, errorMode := true, condDelay := false })

/-- When an interrupt is pending, and that a pending one is taken instead of the instruction. R44, R501, R510, R525, R526.
The order of the events of a step is the model's (log 8); R501, R510, R525 and R526 are general knowledge in part (log 4). -/
def Obligations.InterruptCondition : Prop :=
  ∀ s : State,
    (s.interruptCondition = true ↔ s.et = true ∧ s.irl ≠ 0#4 ∧ (s.irl = 15#4 ∨ s.pil.toNat < s.irl.toNat))
    ∧ (∀ u, ProcessorTurn s u → s.errorMode = false → s.inject ≠ some .store → s.interruptCondition = true →
      ∃ t, step s = .next t ∧ TrapTaken u t (BitVec.ofNat 8 (0x10 + s.irl.toNat)))

/-- In error mode a processor step changes nothing, and the reset trap leaves it. That a step in error mode answers the same
state is the model's reading of "stuck until reset" (log 27). -/
def Obligations.ErrorMode : Prop :=
  ∀ s : State, s.errorMode = true →
    (s.env = [] → step s = .next s)
    ∧ (∀ rest, s.env = .processor :: rest → step s = .next { s with env := rest })
    ∧ (∀ rest, s.env = .reset :: rest → ∃ t, step s = .next t ∧ t.errorMode = false)

/-- A step runs the instruction that the word at the program counter decodes to. The order in which the events of a step are
served is the model's (log 8); a word stored to since its last FLUSH is refused (log 24). -/
def Obligations.StepRunsDecoded : Prop :=
  ∀ (s u : State) (i : Instr), ProcessorTurn s u → u.errorMode = false → u.interruptCondition = false →
    (∀ (w : Word) (t : State), u.inject ≠ some .store → fetch u = .ok w t → decode u.cfg w = .instr i → step s = exec i t)
    ∧ (u.inject = none → TranslationOff u → u.cfg.physExists u.pc.toNat = true → u.pc.toNat % 4 = 0 →
      u.pc.toNat ∉ u.stale → decode u.cfg (BitVec.ofNat 32 (bigEndian u u.pc.toNat 4)) = .instr i → step s = exec i u)

/-- Every step keeps the invariant, and never changes the implementation. No single rule states it; the clauses of Inv name
their rules. -/
def Obligations.StepKeepsInvariant : Prop :=
  ∀ s t : State, Inv s → step s = .next t → Inv t ∧ t.cfg = s.cfg

/-- The state after reset meets the invariant. The values are those of spec/10_state.md R65 and of log 3. -/
def Obligations.InvariantAtReset : Prop :=
  Inv State.reset ∧ ∀ c : Config, c.wf = true → Inv (State.resetFor c)

/-- What the reset trap sets and what it leaves. R700, general knowledge but for the three stated effects (log 4, 9). -/
def Obligations.ResetTrap : Prop :=
  ∀ (s : State) (rest : List Event), s.env = .reset :: rest → ∃ t, step s = .next t
    ∧ t.errorMode = false ∧ t.aw = false ∧ t.paw = false ∧ t.svt = false ∧ t.et = false ∧ t.ps = s.sup ∧ t.sup = true
    ∧ t.cwp = BitVec.ofNat 5 ((s.cwp.toNat + s.cfg.nwindows - 1) % s.cfg.nwindows)
    ∧ t.regIn t.cwp.toNat 17#5 = s.pc ∧ t.regIn t.cwp.toNat 18#5 = s.npc
    ∧ t.psr.getLsbD 12 = false ∧ t.psr.getLsbD 13 = false
    ∧ t.mmuEnable = false ∧ t.pc = 0#32 ∧ t.npc = 4#32 ∧ t.tt = s.tt
    ∧ (∀ u ∈ t.iircs, u.mode0 = 0#16 ∧ u.mode1 = 0#16 ∧ u.irqLatch = 0#16 ∧ u.mask = 0#16 ∧ u.irlLatch = 0#4)
    ∧ (∀ u ∈ t.timers, u.pv = 1#32 ∧ u.psel = 0#32 ∧ u.pext = false ∧ u.control = TimerControl.reset ∧ u.reload = 0#32
        ∧ u.cnt = 0#32 ∧ u.phase = .stopped)

/-- The values the spec states for the state after reset, and the empty memory of the model. R65, R594, R651. That memory
lists nothing is the model's choice and no value of the spec (log 5, log 10); the values that the spec leaves open (log 3)
are no part of it. -/
def Obligations.ResetState : Prop :=
  let s := State.reset
  s.pc = 0#32 ∧ s.npc = 4#32 ∧ s.sup = true ∧ s.et = false ∧ s.aw = false ∧ s.paw = false ∧ s.svt = false
  ∧ s.mmuEnable = false ∧ s.errorMode = false ∧ s.psr.getLsbD 12 = false ∧ s.psr.getLsbD 13 = false
  ∧ s.psr.extractLsb' 28 4 = s.cfg.psrImpl ∧ s.psr.extractLsb' 24 4 = s.cfg.psrVer
  ∧ (∀ u ∈ s.iircs, u.mode0 = 0#16 ∧ u.mode1 = 0#16 ∧ u.irqLatch = 0#16 ∧ u.mask = 0#16 ∧ u.irlLatch = 0#4)
  ∧ (∀ u ∈ s.timers, u.pv = 1#32 ∧ u.psel = 0#32 ∧ u.pext = false ∧ u.control = TimerControl.reset ∧ u.reload = 0#32
      ∧ u.cnt = 0#32 ∧ u.phase = .stopped)
  ∧ s.mem = []

/-- No user-mode instruction changes a privileged register but by entering a trap handler or error mode. An invariant of
every instruction that no single rule states: it follows from R310, R505, R510 and R531. -/
def Obligations.UserModeProtection : Prop :=
  ∀ (i : Instr) (s t : State), s.sup = false → exec i s = .next t →
    SamePrivileged s t
    ∨ (s.et = true ∧ t.sup = true ∧ t.et = false ∧ t.ps = false ∧ t.pc.toNat = handlerAddress s t.tt ∧ t.pil = s.pil
      ∧ t.wim = s.wim ∧ t.tba = s.tba ∧ t.svt = s.svt ∧ t.awpReg = s.awpReg ∧ t.errorMode = s.errorMode
      ∧ t.mmuEnable = s.mmuEnable ∧ t.mmuNoFault = s.mmuNoFault ∧ t.ctp = s.ctp ∧ t.ctx = s.ctx)
    ∨ (s.et = false ∧ t.errorMode = true ∧ SamePrivileged s { t with tt := s.tt, errorMode := s.errorMode })

/-- A sample tick of an input handler. R562; the direction of the shift is the spec's own decision D33. -/
def Obligations.HandlerTick : Prop :=
  ∀ (h : Handler) (line : Bool), let inp := line ^^ h.inv
    let t := h.sample line
    (t.buf = true ↔ h.buf = true ∨ (inp = true ∧ (h.width = 0#2 ∨ (h.width = 1#2 ∧ h.shift.getLsbD 5 = true)
      ∨ (h.width = 2#2 ∧ h.shift.toNat / 8 = 7) ∨ (h.width = 3#2 ∧ h.shift.toNat = 63))))
    ∧ t.shift.toNat = (if inp = true then 32 else 0) + h.shift.toNat / 2
    ∧ t = { h with buf := t.buf, shift := t.shift }

/-- The level an interrupt controller presents is its latch unless masked, and its encoder picks the highest request. R582
(spec/60_exceptions.md). -/
def Obligations.InterruptLevel : Prop :=
  ∀ u : Iirc,
    (∀ x : Nat, 1 ≤ x → x ≤ 15 → u.irqLatch.getLsbD x = true → u.mask.getLsbD x = false → x ≤ u.encoded.toNat)
    ∧ (u.encoded = 0#4 ∨ (u.irqLatch.getLsbD u.encoded.toNat = true ∧ u.mask.getLsbD u.encoded.toNat = false))
    ∧ u.irl = if u.mask.getLsbD 0 = true then 0#4 else u.irlLatch

/-- A store to Request Clear clears exactly the request latches whose bits are written as 1. R588. -/
def Obligations.RequestClear : Prop :=
  ∀ (u : Iirc) (isMain : Bool) (v : Word), let t := u.store isMain 0x0C v
    (∀ x : Nat, 1 ≤ x → x ≤ 15 → t.irqLatch.getLsbD x = (u.irqLatch.getLsbD x && !v.getLsbD x))
    ∧ t = { u with irqLatch := t.irqLatch }
    ∧ (∀ (c : Config) (lines : BitVec 16) (x : Nat), 1 ≤ x → x ≤ 15 → t.mode x = 0#2 → c.levelSamples = 1 →
        lines.getLsbD x = true → (t.sample c isMain lines).irqLatch.getLsbD x = true)

/-- The strobe period of a simple counter. R623 in its three forms. -/
def Obligations.CounterPeriod : Prop :=
  ∀ (c : Config) (k : SimpleCounter), 8 ≤ c.scBits → c.scBits ≤ 32 → k.count = k.preload → k.preload.toNat < 2 ^ c.scBits →
    let after := fun n => (fun x : SimpleCounter => x.tick c true)^[n] k
    let period := match c.scForm with
      | .equalZero => k.preload.toNat
      | .underflow => k.preload.toNat + 1
      | .overflow => 2 ^ c.scBits - k.preload.toNat
    1 ≤ period →
    (∀ n, 1 ≤ n → n < period → (after n).strobe = false)
    ∧ (after period).strobe = true ∧ (after period).count = k.preload

/-- A SCALER period of a running pulse generator is exactly SCALER.set count pulses, and what its end does. R602 to R605. -/
def Obligations.PulsePeriod : Prop :=
  ∀ (c : Config) (free : Word × Word) (p : Ppg), p.countPulse c free false = p
    ∧ (8 ≤ c.scalerBits → c.scalerBits ≤ 32 → 8 ≤ c.counterBits → c.counterBits ≤ 32 → p.sRun = true →
      p.scalerCnt = p.scalerSet → p.scalerSet ≠ 0#32 → p.scalerSet.toNat < 2 ^ c.scalerBits →
      p.counterCnt.toNat < 2 ^ c.counterBits →
      let after := fun n => (fun x : Ppg => x.countPulse c free true)^[n] p
      let t := after p.scalerSet.toNat
      (∀ n, n < p.scalerSet.toNat → after n = { p with scalerCnt := p.scalerSet - BitVec.ofNat 32 n })
      ∧ (p.cRun = false → t = { p with out := if p.afterZero = true then p.shaper.getLsbD 4 else p.out, afterZero := false })
      ∧ (p.cRun = true → 2 ≤ p.counterCnt.toNat → t = { p with
          out := if p.afterZero = true then p.shaper.getLsbD 4 else p.out
          afterZero := false, counterCnt := p.counterCnt - 1#32 })
      ∧ (p.cRun = true → p.counterCnt.toNat = 1 → t = { p with
          out := p.shaper.getLsbD 5, afterZero := true
          counterCnt := if p.shaper.getLsbD 1 = true then p.counterSet else 0#32
          cRun := p.shaper.getLsbD 1
          scalerCnt := if p.shaper.getLsbD 0 = true then p.scalerSet else 0#32
          sRun := p.shaper.getLsbD 0 }))

/-- The trace of a timer in modes 0 and 3. R652, which the spec derives from its own rules R640, R643 and R644 (log 30). -/
def Obligations.TimerTrace : Prop :=
  ∀ (c : Config) (u : TimerConfig) (t : Timer), 8 ≤ c.stBits → c.stBits ≤ 32 → t.phase = .stopped → t.inLine = false →
    let tick := fun x : Timer => x.tick u false
    (t.control = { TimerControl.reset with ce := true, event := 1#3 } →
      ∃ r, t.store c u 8 3#32 = .ok r ∧ r.cnt = 3#32 ∧ r.out = false
        ∧ (tick r).cnt = 2#32 ∧ (tick^[2] r).cnt = 1#32 ∧ (tick^[2] r).out = false
        ∧ (tick^[3] r).cnt = 0#32 ∧ (tick^[3] r).out = true ∧ (tick^[4] r).cnt = 3#32 ∧ (tick^[5] r).cnt = 2#32
        ∧ (tick^[5] r).out = true
        ∧ ∃ q, (tick^[5] r).load c u 12 false = .ok (2#32, q) ∧ q.out = false
          ∧ (tick q).cnt = 1#32 ∧ (tick q).out = false ∧ (tick^[2] q).cnt = 0#32 ∧ (tick^[2] q).out = true
          ∧ (tick^[3] q).cnt = 3#32)
    ∧ (t.control = { TimerControl.reset with mode := 3#3, ce := true, event := 1#3 } →
      ∃ r, t.store c u 8 2#32 = .ok r ∧ r.cnt = 2#32 ∧ (tick r).cnt = 1#32
        ∧ ∃ q, (tick r).store c u 8 2#32 = .ok q ∧ q.cnt = 2#32 ∧ (tick q).cnt = 1#32
          ∧ (tick^[2] q).cnt = 0#32 ∧ (tick^[2] q).out = true ∧ (tick^[2] q).phase = .halted
          ∧ ∀ n, tick^[n] (tick^[2] q) = tick^[2] q)

end
end

