-- ==== Sys2Proof/Laws/State.lean ====
section
/-! SUPPORT. What each update of the state leaves as it was and what it sets, one lemma per field: no later proof unfolds a
record update. -/

namespace Sys2Proof.Machine

/-! ## `State.advance` -/

@[simp] theorem State.advance_cfg (s : State) : (s.advance).cfg = s.cfg := rfl
@[simp] theorem State.advance_globals (s : State) : (s.advance).globals = s.globals := rfl
@[simp] theorem State.advance_windows (s : State) : (s.advance).windows = s.windows := rfl
@[simp] theorem State.advance_pc (s : State) : (s.advance).pc = s.npc := rfl
@[simp] theorem State.advance_npc (s : State) : (s.advance).npc = s.npc + 4#32 := rfl
@[simp] theorem State.advance_n (s : State) : (s.advance).n = s.n := rfl
@[simp] theorem State.advance_z (s : State) : (s.advance).z = s.z := rfl
@[simp] theorem State.advance_v (s : State) : (s.advance).v = s.v := rfl
@[simp] theorem State.advance_c (s : State) : (s.advance).c = s.c := rfl
@[simp] theorem State.advance_pil (s : State) : (s.advance).pil = s.pil := rfl
@[simp] theorem State.advance_sup (s : State) : (s.advance).sup = s.sup := rfl
@[simp] theorem State.advance_ps (s : State) : (s.advance).ps = s.ps := rfl
@[simp] theorem State.advance_et (s : State) : (s.advance).et = s.et := rfl
@[simp] theorem State.advance_cwp (s : State) : (s.advance).cwp = s.cwp := rfl
@[simp] theorem State.advance_aw (s : State) : (s.advance).aw = s.aw := rfl
@[simp] theorem State.advance_paw (s : State) : (s.advance).paw = s.paw := rfl
@[simp] theorem State.advance_wim (s : State) : (s.advance).wim = s.wim := rfl
@[simp] theorem State.advance_tba (s : State) : (s.advance).tba = s.tba := rfl
@[simp] theorem State.advance_tt (s : State) : (s.advance).tt = s.tt := rfl
@[simp] theorem State.advance_y (s : State) : (s.advance).y = s.y := rfl
@[simp] theorem State.advance_svt (s : State) : (s.advance).svt = s.svt := rfl
@[simp] theorem State.advance_accHi (s : State) : (s.advance).accHi = s.accHi := rfl
@[simp] theorem State.advance_accLo (s : State) : (s.advance).accLo = s.accLo := rfl
@[simp] theorem State.advance_accOverflow (s : State) : (s.advance).accOverflow = s.accOverflow := rfl
@[simp] theorem State.advance_accCarry (s : State) : (s.advance).accCarry = s.accCarry := rfl
@[simp] theorem State.advance_awpReg (s : State) : (s.advance).awpReg = s.awpReg := rfl
@[simp] theorem State.advance_errorMode (s : State) : (s.advance).errorMode = s.errorMode := rfl
@[simp] theorem State.advance_mmuEnable (s : State) : (s.advance).mmuEnable = s.mmuEnable := rfl
@[simp] theorem State.advance_mmuNoFault (s : State) : (s.advance).mmuNoFault = s.mmuNoFault := rfl
@[simp] theorem State.advance_ctp (s : State) : (s.advance).ctp = s.ctp := rfl
@[simp] theorem State.advance_ctx (s : State) : (s.advance).ctx = s.ctx := rfl
@[simp] theorem State.advance_fsr (s : State) : (s.advance).fsr = s.fsr := rfl
@[simp] theorem State.advance_far (s : State) : (s.advance).far = s.far := rfl
@[simp] theorem State.advance_tlb (s : State) : (s.advance).tlb = s.tlb := rfl
@[simp] theorem State.advance_handlers (s : State) : (s.advance).handlers = s.handlers := rfl
@[simp] theorem State.advance_iircs (s : State) : (s.advance).iircs = s.iircs := rfl
@[simp] theorem State.advance_ppgs (s : State) : (s.advance).ppgs = s.ppgs := rfl
@[simp] theorem State.advance_counters (s : State) : (s.advance).counters = s.counters := rfl
@[simp] theorem State.advance_sysctl (s : State) : (s.advance).sysctl = s.sysctl := rfl
@[simp] theorem State.advance_timers (s : State) : (s.advance).timers = s.timers := rfl
@[simp] theorem State.advance_irlHost (s : State) : (s.advance).irlHost = s.irlHost := rfl
@[simp] theorem State.advance_inject (s : State) : (s.advance).inject = s.inject := rfl
@[simp] theorem State.advance_condDelay (s : State) : (s.advance).condDelay = false := rfl
@[simp] theorem State.advance_stale (s : State) : (s.advance).stale = s.stale := rfl
@[simp] theorem State.advance_flushed (s : State) : (s.advance).flushed = s.flushed := rfl
@[simp] theorem State.advance_mem (s : State) : (s.advance).mem = s.mem := rfl
@[simp] theorem State.advance_env (s : State) : (s.advance).env = s.env := rfl
@[simp] theorem State.advance_freeCount (s : State) : (s.advance).freeCount = s.freeCount := rfl

/-! ## `State.transfer` -/

@[simp] theorem State.transfer_cfg (s : State) (x : Word) : (s.transfer x).cfg = s.cfg := rfl
@[simp] theorem State.transfer_globals (s : State) (x : Word) : (s.transfer x).globals = s.globals := rfl
@[simp] theorem State.transfer_windows (s : State) (x : Word) : (s.transfer x).windows = s.windows := rfl
@[simp] theorem State.transfer_pc (s : State) (x : Word) : (s.transfer x).pc = s.npc := rfl
@[simp] theorem State.transfer_npc (s : State) (x : Word) : (s.transfer x).npc = x := rfl
@[simp] theorem State.transfer_n (s : State) (x : Word) : (s.transfer x).n = s.n := rfl
@[simp] theorem State.transfer_z (s : State) (x : Word) : (s.transfer x).z = s.z := rfl
@[simp] theorem State.transfer_v (s : State) (x : Word) : (s.transfer x).v = s.v := rfl
@[simp] theorem State.transfer_c (s : State) (x : Word) : (s.transfer x).c = s.c := rfl
@[simp] theorem State.transfer_pil (s : State) (x : Word) : (s.transfer x).pil = s.pil := rfl
@[simp] theorem State.transfer_sup (s : State) (x : Word) : (s.transfer x).sup = s.sup := rfl
@[simp] theorem State.transfer_ps (s : State) (x : Word) : (s.transfer x).ps = s.ps := rfl
@[simp] theorem State.transfer_et (s : State) (x : Word) : (s.transfer x).et = s.et := rfl
@[simp] theorem State.transfer_cwp (s : State) (x : Word) : (s.transfer x).cwp = s.cwp := rfl
@[simp] theorem State.transfer_aw (s : State) (x : Word) : (s.transfer x).aw = s.aw := rfl
@[simp] theorem State.transfer_paw (s : State) (x : Word) : (s.transfer x).paw = s.paw := rfl
@[simp] theorem State.transfer_wim (s : State) (x : Word) : (s.transfer x).wim = s.wim := rfl
@[simp] theorem State.transfer_tba (s : State) (x : Word) : (s.transfer x).tba = s.tba := rfl
@[simp] theorem State.transfer_tt (s : State) (x : Word) : (s.transfer x).tt = s.tt := rfl
@[simp] theorem State.transfer_y (s : State) (x : Word) : (s.transfer x).y = s.y := rfl
@[simp] theorem State.transfer_svt (s : State) (x : Word) : (s.transfer x).svt = s.svt := rfl
@[simp] theorem State.transfer_accHi (s : State) (x : Word) : (s.transfer x).accHi = s.accHi := rfl
@[simp] theorem State.transfer_accLo (s : State) (x : Word) : (s.transfer x).accLo = s.accLo := rfl
@[simp] theorem State.transfer_accOverflow (s : State) (x : Word) : (s.transfer x).accOverflow = s.accOverflow := rfl
@[simp] theorem State.transfer_accCarry (s : State) (x : Word) : (s.transfer x).accCarry = s.accCarry := rfl
@[simp] theorem State.transfer_awpReg (s : State) (x : Word) : (s.transfer x).awpReg = s.awpReg := rfl
@[simp] theorem State.transfer_errorMode (s : State) (x : Word) : (s.transfer x).errorMode = s.errorMode := rfl
@[simp] theorem State.transfer_mmuEnable (s : State) (x : Word) : (s.transfer x).mmuEnable = s.mmuEnable := rfl
@[simp] theorem State.transfer_mmuNoFault (s : State) (x : Word) : (s.transfer x).mmuNoFault = s.mmuNoFault := rfl
@[simp] theorem State.transfer_ctp (s : State) (x : Word) : (s.transfer x).ctp = s.ctp := rfl
@[simp] theorem State.transfer_ctx (s : State) (x : Word) : (s.transfer x).ctx = s.ctx := rfl
@[simp] theorem State.transfer_fsr (s : State) (x : Word) : (s.transfer x).fsr = s.fsr := rfl
@[simp] theorem State.transfer_far (s : State) (x : Word) : (s.transfer x).far = s.far := rfl
@[simp] theorem State.transfer_tlb (s : State) (x : Word) : (s.transfer x).tlb = s.tlb := rfl
@[simp] theorem State.transfer_handlers (s : State) (x : Word) : (s.transfer x).handlers = s.handlers := rfl
@[simp] theorem State.transfer_iircs (s : State) (x : Word) : (s.transfer x).iircs = s.iircs := rfl
@[simp] theorem State.transfer_ppgs (s : State) (x : Word) : (s.transfer x).ppgs = s.ppgs := rfl
@[simp] theorem State.transfer_counters (s : State) (x : Word) : (s.transfer x).counters = s.counters := rfl
@[simp] theorem State.transfer_sysctl (s : State) (x : Word) : (s.transfer x).sysctl = s.sysctl := rfl
@[simp] theorem State.transfer_timers (s : State) (x : Word) : (s.transfer x).timers = s.timers := rfl
@[simp] theorem State.transfer_irlHost (s : State) (x : Word) : (s.transfer x).irlHost = s.irlHost := rfl
@[simp] theorem State.transfer_inject (s : State) (x : Word) : (s.transfer x).inject = s.inject := rfl
@[simp] theorem State.transfer_condDelay (s : State) (x : Word) : (s.transfer x).condDelay = false := rfl
@[simp] theorem State.transfer_stale (s : State) (x : Word) : (s.transfer x).stale = s.stale := rfl
@[simp] theorem State.transfer_flushed (s : State) (x : Word) : (s.transfer x).flushed = s.flushed := rfl
@[simp] theorem State.transfer_mem (s : State) (x : Word) : (s.transfer x).mem = s.mem := rfl
@[simp] theorem State.transfer_env (s : State) (x : Word) : (s.transfer x).env = s.env := rfl
@[simp] theorem State.transfer_freeCount (s : State) (x : Word) : (s.transfer x).freeCount = s.freeCount := rfl

/-! ## `State.skip` -/

@[simp] theorem State.skip_cfg (s : State) : (s.skip).cfg = s.cfg := rfl
@[simp] theorem State.skip_globals (s : State) : (s.skip).globals = s.globals := rfl
@[simp] theorem State.skip_windows (s : State) : (s.skip).windows = s.windows := rfl
@[simp] theorem State.skip_pc (s : State) : (s.skip).pc = s.npc + 4#32 := rfl
@[simp] theorem State.skip_npc (s : State) : (s.skip).npc = s.npc + 8#32 := rfl
@[simp] theorem State.skip_n (s : State) : (s.skip).n = s.n := rfl
@[simp] theorem State.skip_z (s : State) : (s.skip).z = s.z := rfl
@[simp] theorem State.skip_v (s : State) : (s.skip).v = s.v := rfl
@[simp] theorem State.skip_c (s : State) : (s.skip).c = s.c := rfl
@[simp] theorem State.skip_pil (s : State) : (s.skip).pil = s.pil := rfl
@[simp] theorem State.skip_sup (s : State) : (s.skip).sup = s.sup := rfl
@[simp] theorem State.skip_ps (s : State) : (s.skip).ps = s.ps := rfl
@[simp] theorem State.skip_et (s : State) : (s.skip).et = s.et := rfl
@[simp] theorem State.skip_cwp (s : State) : (s.skip).cwp = s.cwp := rfl
@[simp] theorem State.skip_aw (s : State) : (s.skip).aw = s.aw := rfl
@[simp] theorem State.skip_paw (s : State) : (s.skip).paw = s.paw := rfl
@[simp] theorem State.skip_wim (s : State) : (s.skip).wim = s.wim := rfl
@[simp] theorem State.skip_tba (s : State) : (s.skip).tba = s.tba := rfl
@[simp] theorem State.skip_tt (s : State) : (s.skip).tt = s.tt := rfl
@[simp] theorem State.skip_y (s : State) : (s.skip).y = s.y := rfl
@[simp] theorem State.skip_svt (s : State) : (s.skip).svt = s.svt := rfl
@[simp] theorem State.skip_accHi (s : State) : (s.skip).accHi = s.accHi := rfl
@[simp] theorem State.skip_accLo (s : State) : (s.skip).accLo = s.accLo := rfl
@[simp] theorem State.skip_accOverflow (s : State) : (s.skip).accOverflow = s.accOverflow := rfl
@[simp] theorem State.skip_accCarry (s : State) : (s.skip).accCarry = s.accCarry := rfl
@[simp] theorem State.skip_awpReg (s : State) : (s.skip).awpReg = s.awpReg := rfl
@[simp] theorem State.skip_errorMode (s : State) : (s.skip).errorMode = s.errorMode := rfl
@[simp] theorem State.skip_mmuEnable (s : State) : (s.skip).mmuEnable = s.mmuEnable := rfl
@[simp] theorem State.skip_mmuNoFault (s : State) : (s.skip).mmuNoFault = s.mmuNoFault := rfl
@[simp] theorem State.skip_ctp (s : State) : (s.skip).ctp = s.ctp := rfl
@[simp] theorem State.skip_ctx (s : State) : (s.skip).ctx = s.ctx := rfl
@[simp] theorem State.skip_fsr (s : State) : (s.skip).fsr = s.fsr := rfl
@[simp] theorem State.skip_far (s : State) : (s.skip).far = s.far := rfl
@[simp] theorem State.skip_tlb (s : State) : (s.skip).tlb = s.tlb := rfl
@[simp] theorem State.skip_handlers (s : State) : (s.skip).handlers = s.handlers := rfl
@[simp] theorem State.skip_iircs (s : State) : (s.skip).iircs = s.iircs := rfl
@[simp] theorem State.skip_ppgs (s : State) : (s.skip).ppgs = s.ppgs := rfl
@[simp] theorem State.skip_counters (s : State) : (s.skip).counters = s.counters := rfl
@[simp] theorem State.skip_sysctl (s : State) : (s.skip).sysctl = s.sysctl := rfl
@[simp] theorem State.skip_timers (s : State) : (s.skip).timers = s.timers := rfl
@[simp] theorem State.skip_irlHost (s : State) : (s.skip).irlHost = s.irlHost := rfl
@[simp] theorem State.skip_inject (s : State) : (s.skip).inject = s.inject := rfl
@[simp] theorem State.skip_condDelay (s : State) : (s.skip).condDelay = false := rfl
@[simp] theorem State.skip_stale (s : State) : (s.skip).stale = s.stale := rfl
@[simp] theorem State.skip_flushed (s : State) : (s.skip).flushed = s.flushed := rfl
@[simp] theorem State.skip_mem (s : State) : (s.skip).mem = s.mem := rfl
@[simp] theorem State.skip_env (s : State) : (s.skip).env = s.env := rfl
@[simp] theorem State.skip_freeCount (s : State) : (s.skip).freeCount = s.freeCount := rfl

/-! ## `State.jump` -/

@[simp] theorem State.jump_cfg (s : State) (x : Word) : (s.jump x).cfg = s.cfg := rfl
@[simp] theorem State.jump_globals (s : State) (x : Word) : (s.jump x).globals = s.globals := rfl
@[simp] theorem State.jump_windows (s : State) (x : Word) : (s.jump x).windows = s.windows := rfl
@[simp] theorem State.jump_pc (s : State) (x : Word) : (s.jump x).pc = x := rfl
@[simp] theorem State.jump_npc (s : State) (x : Word) : (s.jump x).npc = x + 4#32 := rfl
@[simp] theorem State.jump_n (s : State) (x : Word) : (s.jump x).n = s.n := rfl
@[simp] theorem State.jump_z (s : State) (x : Word) : (s.jump x).z = s.z := rfl
@[simp] theorem State.jump_v (s : State) (x : Word) : (s.jump x).v = s.v := rfl
@[simp] theorem State.jump_c (s : State) (x : Word) : (s.jump x).c = s.c := rfl
@[simp] theorem State.jump_pil (s : State) (x : Word) : (s.jump x).pil = s.pil := rfl
@[simp] theorem State.jump_sup (s : State) (x : Word) : (s.jump x).sup = s.sup := rfl
@[simp] theorem State.jump_ps (s : State) (x : Word) : (s.jump x).ps = s.ps := rfl
@[simp] theorem State.jump_et (s : State) (x : Word) : (s.jump x).et = s.et := rfl
@[simp] theorem State.jump_cwp (s : State) (x : Word) : (s.jump x).cwp = s.cwp := rfl
@[simp] theorem State.jump_aw (s : State) (x : Word) : (s.jump x).aw = s.aw := rfl
@[simp] theorem State.jump_paw (s : State) (x : Word) : (s.jump x).paw = s.paw := rfl
@[simp] theorem State.jump_wim (s : State) (x : Word) : (s.jump x).wim = s.wim := rfl
@[simp] theorem State.jump_tba (s : State) (x : Word) : (s.jump x).tba = s.tba := rfl
@[simp] theorem State.jump_tt (s : State) (x : Word) : (s.jump x).tt = s.tt := rfl
@[simp] theorem State.jump_y (s : State) (x : Word) : (s.jump x).y = s.y := rfl
@[simp] theorem State.jump_svt (s : State) (x : Word) : (s.jump x).svt = s.svt := rfl
@[simp] theorem State.jump_accHi (s : State) (x : Word) : (s.jump x).accHi = s.accHi := rfl
@[simp] theorem State.jump_accLo (s : State) (x : Word) : (s.jump x).accLo = s.accLo := rfl
@[simp] theorem State.jump_accOverflow (s : State) (x : Word) : (s.jump x).accOverflow = s.accOverflow := rfl
@[simp] theorem State.jump_accCarry (s : State) (x : Word) : (s.jump x).accCarry = s.accCarry := rfl
@[simp] theorem State.jump_awpReg (s : State) (x : Word) : (s.jump x).awpReg = s.awpReg := rfl
@[simp] theorem State.jump_errorMode (s : State) (x : Word) : (s.jump x).errorMode = s.errorMode := rfl
@[simp] theorem State.jump_mmuEnable (s : State) (x : Word) : (s.jump x).mmuEnable = s.mmuEnable := rfl
@[simp] theorem State.jump_mmuNoFault (s : State) (x : Word) : (s.jump x).mmuNoFault = s.mmuNoFault := rfl
@[simp] theorem State.jump_ctp (s : State) (x : Word) : (s.jump x).ctp = s.ctp := rfl
@[simp] theorem State.jump_ctx (s : State) (x : Word) : (s.jump x).ctx = s.ctx := rfl
@[simp] theorem State.jump_fsr (s : State) (x : Word) : (s.jump x).fsr = s.fsr := rfl
@[simp] theorem State.jump_far (s : State) (x : Word) : (s.jump x).far = s.far := rfl
@[simp] theorem State.jump_tlb (s : State) (x : Word) : (s.jump x).tlb = s.tlb := rfl
@[simp] theorem State.jump_handlers (s : State) (x : Word) : (s.jump x).handlers = s.handlers := rfl
@[simp] theorem State.jump_iircs (s : State) (x : Word) : (s.jump x).iircs = s.iircs := rfl
@[simp] theorem State.jump_ppgs (s : State) (x : Word) : (s.jump x).ppgs = s.ppgs := rfl
@[simp] theorem State.jump_counters (s : State) (x : Word) : (s.jump x).counters = s.counters := rfl
@[simp] theorem State.jump_sysctl (s : State) (x : Word) : (s.jump x).sysctl = s.sysctl := rfl
@[simp] theorem State.jump_timers (s : State) (x : Word) : (s.jump x).timers = s.timers := rfl
@[simp] theorem State.jump_irlHost (s : State) (x : Word) : (s.jump x).irlHost = s.irlHost := rfl
@[simp] theorem State.jump_inject (s : State) (x : Word) : (s.jump x).inject = s.inject := rfl
@[simp] theorem State.jump_condDelay (s : State) (x : Word) : (s.jump x).condDelay = false := rfl
@[simp] theorem State.jump_stale (s : State) (x : Word) : (s.jump x).stale = s.stale := rfl
@[simp] theorem State.jump_flushed (s : State) (x : Word) : (s.jump x).flushed = s.flushed := rfl
@[simp] theorem State.jump_mem (s : State) (x : Word) : (s.jump x).mem = s.mem := rfl
@[simp] theorem State.jump_env (s : State) (x : Word) : (s.jump x).env = s.env := rfl
@[simp] theorem State.jump_freeCount (s : State) (x : Word) : (s.jump x).freeCount = s.freeCount := rfl

/-! ## `State.setIcc` -/

@[simp] theorem State.setIcc_cfg (s : State) (f : Icc) : (s.setIcc f).cfg = s.cfg := rfl
@[simp] theorem State.setIcc_globals (s : State) (f : Icc) : (s.setIcc f).globals = s.globals := rfl
@[simp] theorem State.setIcc_windows (s : State) (f : Icc) : (s.setIcc f).windows = s.windows := rfl
@[simp] theorem State.setIcc_pc (s : State) (f : Icc) : (s.setIcc f).pc = s.pc := rfl
@[simp] theorem State.setIcc_npc (s : State) (f : Icc) : (s.setIcc f).npc = s.npc := rfl
@[simp] theorem State.setIcc_n (s : State) (f : Icc) : (s.setIcc f).n = f.n := rfl
@[simp] theorem State.setIcc_z (s : State) (f : Icc) : (s.setIcc f).z = f.z := rfl
@[simp] theorem State.setIcc_v (s : State) (f : Icc) : (s.setIcc f).v = f.v := rfl
@[simp] theorem State.setIcc_c (s : State) (f : Icc) : (s.setIcc f).c = f.c := rfl
@[simp] theorem State.setIcc_pil (s : State) (f : Icc) : (s.setIcc f).pil = s.pil := rfl
@[simp] theorem State.setIcc_sup (s : State) (f : Icc) : (s.setIcc f).sup = s.sup := rfl
@[simp] theorem State.setIcc_ps (s : State) (f : Icc) : (s.setIcc f).ps = s.ps := rfl
@[simp] theorem State.setIcc_et (s : State) (f : Icc) : (s.setIcc f).et = s.et := rfl
@[simp] theorem State.setIcc_cwp (s : State) (f : Icc) : (s.setIcc f).cwp = s.cwp := rfl
@[simp] theorem State.setIcc_aw (s : State) (f : Icc) : (s.setIcc f).aw = s.aw := rfl
@[simp] theorem State.setIcc_paw (s : State) (f : Icc) : (s.setIcc f).paw = s.paw := rfl
@[simp] theorem State.setIcc_wim (s : State) (f : Icc) : (s.setIcc f).wim = s.wim := rfl
@[simp] theorem State.setIcc_tba (s : State) (f : Icc) : (s.setIcc f).tba = s.tba := rfl
@[simp] theorem State.setIcc_tt (s : State) (f : Icc) : (s.setIcc f).tt = s.tt := rfl
@[simp] theorem State.setIcc_y (s : State) (f : Icc) : (s.setIcc f).y = s.y := rfl
@[simp] theorem State.setIcc_svt (s : State) (f : Icc) : (s.setIcc f).svt = s.svt := rfl
@[simp] theorem State.setIcc_accHi (s : State) (f : Icc) : (s.setIcc f).accHi = s.accHi := rfl
@[simp] theorem State.setIcc_accLo (s : State) (f : Icc) : (s.setIcc f).accLo = s.accLo := rfl
@[simp] theorem State.setIcc_accOverflow (s : State) (f : Icc) : (s.setIcc f).accOverflow = s.accOverflow := rfl
@[simp] theorem State.setIcc_accCarry (s : State) (f : Icc) : (s.setIcc f).accCarry = s.accCarry := rfl
@[simp] theorem State.setIcc_awpReg (s : State) (f : Icc) : (s.setIcc f).awpReg = s.awpReg := rfl
@[simp] theorem State.setIcc_errorMode (s : State) (f : Icc) : (s.setIcc f).errorMode = s.errorMode := rfl
@[simp] theorem State.setIcc_mmuEnable (s : State) (f : Icc) : (s.setIcc f).mmuEnable = s.mmuEnable := rfl
@[simp] theorem State.setIcc_mmuNoFault (s : State) (f : Icc) : (s.setIcc f).mmuNoFault = s.mmuNoFault := rfl
@[simp] theorem State.setIcc_ctp (s : State) (f : Icc) : (s.setIcc f).ctp = s.ctp := rfl
@[simp] theorem State.setIcc_ctx (s : State) (f : Icc) : (s.setIcc f).ctx = s.ctx := rfl
@[simp] theorem State.setIcc_fsr (s : State) (f : Icc) : (s.setIcc f).fsr = s.fsr := rfl
@[simp] theorem State.setIcc_far (s : State) (f : Icc) : (s.setIcc f).far = s.far := rfl
@[simp] theorem State.setIcc_tlb (s : State) (f : Icc) : (s.setIcc f).tlb = s.tlb := rfl
@[simp] theorem State.setIcc_handlers (s : State) (f : Icc) : (s.setIcc f).handlers = s.handlers := rfl
@[simp] theorem State.setIcc_iircs (s : State) (f : Icc) : (s.setIcc f).iircs = s.iircs := rfl
@[simp] theorem State.setIcc_ppgs (s : State) (f : Icc) : (s.setIcc f).ppgs = s.ppgs := rfl
@[simp] theorem State.setIcc_counters (s : State) (f : Icc) : (s.setIcc f).counters = s.counters := rfl
@[simp] theorem State.setIcc_sysctl (s : State) (f : Icc) : (s.setIcc f).sysctl = s.sysctl := rfl
@[simp] theorem State.setIcc_timers (s : State) (f : Icc) : (s.setIcc f).timers = s.timers := rfl
@[simp] theorem State.setIcc_irlHost (s : State) (f : Icc) : (s.setIcc f).irlHost = s.irlHost := rfl
@[simp] theorem State.setIcc_inject (s : State) (f : Icc) : (s.setIcc f).inject = s.inject := rfl
@[simp] theorem State.setIcc_condDelay (s : State) (f : Icc) : (s.setIcc f).condDelay = s.condDelay := rfl
@[simp] theorem State.setIcc_stale (s : State) (f : Icc) : (s.setIcc f).stale = s.stale := rfl
@[simp] theorem State.setIcc_flushed (s : State) (f : Icc) : (s.setIcc f).flushed = s.flushed := rfl
@[simp] theorem State.setIcc_mem (s : State) (f : Icc) : (s.setIcc f).mem = s.mem := rfl
@[simp] theorem State.setIcc_env (s : State) (f : Icc) : (s.setIcc f).env = s.env := rfl
@[simp] theorem State.setIcc_freeCount (s : State) (f : Icc) : (s.setIcc f).freeCount = s.freeCount := rfl

/-! ## `State.enterTrapStatus` -/

@[simp] theorem State.enterTrapStatus_cfg (s : State) (k : TrapType) : (s.enterTrapStatus k).cfg = s.cfg := rfl
@[simp] theorem State.enterTrapStatus_globals (s : State) (k : TrapType) : (s.enterTrapStatus k).globals = s.globals := rfl
@[simp] theorem State.enterTrapStatus_windows (s : State) (k : TrapType) : (s.enterTrapStatus k).windows = s.windows := rfl
@[simp] theorem State.enterTrapStatus_pc (s : State) (k : TrapType) : (s.enterTrapStatus k).pc = s.pc := rfl
@[simp] theorem State.enterTrapStatus_npc (s : State) (k : TrapType) : (s.enterTrapStatus k).npc = s.npc := rfl
@[simp] theorem State.enterTrapStatus_n (s : State) (k : TrapType) : (s.enterTrapStatus k).n = s.n := rfl
@[simp] theorem State.enterTrapStatus_z (s : State) (k : TrapType) : (s.enterTrapStatus k).z = s.z := rfl
@[simp] theorem State.enterTrapStatus_v (s : State) (k : TrapType) : (s.enterTrapStatus k).v = s.v := rfl
@[simp] theorem State.enterTrapStatus_c (s : State) (k : TrapType) : (s.enterTrapStatus k).c = s.c := rfl
@[simp] theorem State.enterTrapStatus_pil (s : State) (k : TrapType) : (s.enterTrapStatus k).pil = s.pil := rfl
@[simp] theorem State.enterTrapStatus_sup (s : State) (k : TrapType) : (s.enterTrapStatus k).sup = true := rfl
@[simp] theorem State.enterTrapStatus_ps (s : State) (k : TrapType) : (s.enterTrapStatus k).ps = s.sup := rfl
@[simp] theorem State.enterTrapStatus_et (s : State) (k : TrapType) : (s.enterTrapStatus k).et = false := rfl
@[simp] theorem State.enterTrapStatus_cwp (s : State) (k : TrapType) : (s.enterTrapStatus k).cwp = s.prevWindow := rfl
@[simp] theorem State.enterTrapStatus_aw (s : State) (k : TrapType) : (s.enterTrapStatus k).aw = (if s.cfg.awp then false else s.aw) := rfl
@[simp] theorem State.enterTrapStatus_paw (s : State) (k : TrapType) : (s.enterTrapStatus k).paw = (if s.cfg.awp then s.aw else s.paw) := rfl
@[simp] theorem State.enterTrapStatus_wim (s : State) (k : TrapType) : (s.enterTrapStatus k).wim = s.wim := rfl
@[simp] theorem State.enterTrapStatus_tba (s : State) (k : TrapType) : (s.enterTrapStatus k).tba = s.tba := rfl
@[simp] theorem State.enterTrapStatus_tt (s : State) (k : TrapType) : (s.enterTrapStatus k).tt = k := rfl
@[simp] theorem State.enterTrapStatus_y (s : State) (k : TrapType) : (s.enterTrapStatus k).y = s.y := rfl
@[simp] theorem State.enterTrapStatus_svt (s : State) (k : TrapType) : (s.enterTrapStatus k).svt = s.svt := rfl
@[simp] theorem State.enterTrapStatus_accHi (s : State) (k : TrapType) : (s.enterTrapStatus k).accHi = s.accHi := rfl
@[simp] theorem State.enterTrapStatus_accLo (s : State) (k : TrapType) : (s.enterTrapStatus k).accLo = s.accLo := rfl
@[simp] theorem State.enterTrapStatus_accOverflow (s : State) (k : TrapType) : (s.enterTrapStatus k).accOverflow = s.accOverflow := rfl
@[simp] theorem State.enterTrapStatus_accCarry (s : State) (k : TrapType) : (s.enterTrapStatus k).accCarry = s.accCarry := rfl
@[simp] theorem State.enterTrapStatus_awpReg (s : State) (k : TrapType) : (s.enterTrapStatus k).awpReg = s.awpReg := rfl
@[simp] theorem State.enterTrapStatus_errorMode (s : State) (k : TrapType) : (s.enterTrapStatus k).errorMode = s.errorMode := rfl
@[simp] theorem State.enterTrapStatus_mmuEnable (s : State) (k : TrapType) : (s.enterTrapStatus k).mmuEnable = s.mmuEnable := rfl
@[simp] theorem State.enterTrapStatus_mmuNoFault (s : State) (k : TrapType) : (s.enterTrapStatus k).mmuNoFault = s.mmuNoFault := rfl
@[simp] theorem State.enterTrapStatus_ctp (s : State) (k : TrapType) : (s.enterTrapStatus k).ctp = s.ctp := rfl
@[simp] theorem State.enterTrapStatus_ctx (s : State) (k : TrapType) : (s.enterTrapStatus k).ctx = s.ctx := rfl
@[simp] theorem State.enterTrapStatus_fsr (s : State) (k : TrapType) : (s.enterTrapStatus k).fsr = s.fsr := rfl
@[simp] theorem State.enterTrapStatus_far (s : State) (k : TrapType) : (s.enterTrapStatus k).far = s.far := rfl
@[simp] theorem State.enterTrapStatus_tlb (s : State) (k : TrapType) : (s.enterTrapStatus k).tlb = s.tlb := rfl
@[simp] theorem State.enterTrapStatus_handlers (s : State) (k : TrapType) : (s.enterTrapStatus k).handlers = s.handlers := rfl
@[simp] theorem State.enterTrapStatus_iircs (s : State) (k : TrapType) : (s.enterTrapStatus k).iircs = s.iircs := rfl
@[simp] theorem State.enterTrapStatus_ppgs (s : State) (k : TrapType) : (s.enterTrapStatus k).ppgs = s.ppgs := rfl
@[simp] theorem State.enterTrapStatus_counters (s : State) (k : TrapType) : (s.enterTrapStatus k).counters = s.counters := rfl
@[simp] theorem State.enterTrapStatus_sysctl (s : State) (k : TrapType) : (s.enterTrapStatus k).sysctl = s.sysctl := rfl
@[simp] theorem State.enterTrapStatus_timers (s : State) (k : TrapType) : (s.enterTrapStatus k).timers = s.timers := rfl
@[simp] theorem State.enterTrapStatus_irlHost (s : State) (k : TrapType) : (s.enterTrapStatus k).irlHost = s.irlHost := rfl
@[simp] theorem State.enterTrapStatus_inject (s : State) (k : TrapType) : (s.enterTrapStatus k).inject = s.inject := rfl
@[simp] theorem State.enterTrapStatus_condDelay (s : State) (k : TrapType) : (s.enterTrapStatus k).condDelay = false := rfl
@[simp] theorem State.enterTrapStatus_stale (s : State) (k : TrapType) : (s.enterTrapStatus k).stale = s.stale := rfl
@[simp] theorem State.enterTrapStatus_flushed (s : State) (k : TrapType) : (s.enterTrapStatus k).flushed = s.flushed := rfl
@[simp] theorem State.enterTrapStatus_mem (s : State) (k : TrapType) : (s.enterTrapStatus k).mem = s.mem := rfl
@[simp] theorem State.enterTrapStatus_env (s : State) (k : TrapType) : (s.enterTrapStatus k).env = s.env := rfl
@[simp] theorem State.enterTrapStatus_freeCount (s : State) (k : TrapType) : (s.enterTrapStatus k).freeCount = s.freeCount := rfl

/-! ## `State.storeByte` -/

@[simp] theorem State.storeByte_cfg (s : State) (a : Nat) (x : Byte) : (s.storeByte a x).cfg = s.cfg := rfl
@[simp] theorem State.storeByte_globals (s : State) (a : Nat) (x : Byte) : (s.storeByte a x).globals = s.globals := rfl
@[simp] theorem State.storeByte_windows (s : State) (a : Nat) (x : Byte) : (s.storeByte a x).windows = s.windows := rfl
@[simp] theorem State.storeByte_pc (s : State) (a : Nat) (x : Byte) : (s.storeByte a x).pc = s.pc := rfl
@[simp] theorem State.storeByte_npc (s : State) (a : Nat) (x : Byte) : (s.storeByte a x).npc = s.npc := rfl
@[simp] theorem State.storeByte_n (s : State) (a : Nat) (x : Byte) : (s.storeByte a x).n = s.n := rfl
@[simp] theorem State.storeByte_z (s : State) (a : Nat) (x : Byte) : (s.storeByte a x).z = s.z := rfl
@[simp] theorem State.storeByte_v (s : State) (a : Nat) (x : Byte) : (s.storeByte a x).v = s.v := rfl
@[simp] theorem State.storeByte_c (s : State) (a : Nat) (x : Byte) : (s.storeByte a x).c = s.c := rfl
@[simp] theorem State.storeByte_pil (s : State) (a : Nat) (x : Byte) : (s.storeByte a x).pil = s.pil := rfl
@[simp] theorem State.storeByte_sup (s : State) (a : Nat) (x : Byte) : (s.storeByte a x).sup = s.sup := rfl
@[simp] theorem State.storeByte_ps (s : State) (a : Nat) (x : Byte) : (s.storeByte a x).ps = s.ps := rfl
@[simp] theorem State.storeByte_et (s : State) (a : Nat) (x : Byte) : (s.storeByte a x).et = s.et := rfl
@[simp] theorem State.storeByte_cwp (s : State) (a : Nat) (x : Byte) : (s.storeByte a x).cwp = s.cwp := rfl
@[simp] theorem State.storeByte_aw (s : State) (a : Nat) (x : Byte) : (s.storeByte a x).aw = s.aw := rfl
@[simp] theorem State.storeByte_paw (s : State) (a : Nat) (x : Byte) : (s.storeByte a x).paw = s.paw := rfl
@[simp] theorem State.storeByte_wim (s : State) (a : Nat) (x : Byte) : (s.storeByte a x).wim = s.wim := rfl
@[simp] theorem State.storeByte_tba (s : State) (a : Nat) (x : Byte) : (s.storeByte a x).tba = s.tba := rfl
@[simp] theorem State.storeByte_tt (s : State) (a : Nat) (x : Byte) : (s.storeByte a x).tt = s.tt := rfl
@[simp] theorem State.storeByte_y (s : State) (a : Nat) (x : Byte) : (s.storeByte a x).y = s.y := rfl
@[simp] theorem State.storeByte_svt (s : State) (a : Nat) (x : Byte) : (s.storeByte a x).svt = s.svt := rfl
@[simp] theorem State.storeByte_accHi (s : State) (a : Nat) (x : Byte) : (s.storeByte a x).accHi = s.accHi := rfl
@[simp] theorem State.storeByte_accLo (s : State) (a : Nat) (x : Byte) : (s.storeByte a x).accLo = s.accLo := rfl
@[simp] theorem State.storeByte_accOverflow (s : State) (a : Nat) (x : Byte) : (s.storeByte a x).accOverflow = s.accOverflow := rfl
@[simp] theorem State.storeByte_accCarry (s : State) (a : Nat) (x : Byte) : (s.storeByte a x).accCarry = s.accCarry := rfl
@[simp] theorem State.storeByte_awpReg (s : State) (a : Nat) (x : Byte) : (s.storeByte a x).awpReg = s.awpReg := rfl
@[simp] theorem State.storeByte_errorMode (s : State) (a : Nat) (x : Byte) : (s.storeByte a x).errorMode = s.errorMode := rfl
@[simp] theorem State.storeByte_mmuEnable (s : State) (a : Nat) (x : Byte) : (s.storeByte a x).mmuEnable = s.mmuEnable := rfl
@[simp] theorem State.storeByte_mmuNoFault (s : State) (a : Nat) (x : Byte) : (s.storeByte a x).mmuNoFault = s.mmuNoFault := rfl
@[simp] theorem State.storeByte_ctp (s : State) (a : Nat) (x : Byte) : (s.storeByte a x).ctp = s.ctp := rfl
@[simp] theorem State.storeByte_ctx (s : State) (a : Nat) (x : Byte) : (s.storeByte a x).ctx = s.ctx := rfl
@[simp] theorem State.storeByte_fsr (s : State) (a : Nat) (x : Byte) : (s.storeByte a x).fsr = s.fsr := rfl
@[simp] theorem State.storeByte_far (s : State) (a : Nat) (x : Byte) : (s.storeByte a x).far = s.far := rfl
@[simp] theorem State.storeByte_tlb (s : State) (a : Nat) (x : Byte) : (s.storeByte a x).tlb = s.tlb := rfl
@[simp] theorem State.storeByte_handlers (s : State) (a : Nat) (x : Byte) : (s.storeByte a x).handlers = s.handlers := rfl
@[simp] theorem State.storeByte_iircs (s : State) (a : Nat) (x : Byte) : (s.storeByte a x).iircs = s.iircs := rfl
@[simp] theorem State.storeByte_ppgs (s : State) (a : Nat) (x : Byte) : (s.storeByte a x).ppgs = s.ppgs := rfl
@[simp] theorem State.storeByte_counters (s : State) (a : Nat) (x : Byte) : (s.storeByte a x).counters = s.counters := rfl
@[simp] theorem State.storeByte_sysctl (s : State) (a : Nat) (x : Byte) : (s.storeByte a x).sysctl = s.sysctl := rfl
@[simp] theorem State.storeByte_timers (s : State) (a : Nat) (x : Byte) : (s.storeByte a x).timers = s.timers := rfl
@[simp] theorem State.storeByte_irlHost (s : State) (a : Nat) (x : Byte) : (s.storeByte a x).irlHost = s.irlHost := rfl
@[simp] theorem State.storeByte_inject (s : State) (a : Nat) (x : Byte) : (s.storeByte a x).inject = s.inject := rfl
@[simp] theorem State.storeByte_condDelay (s : State) (a : Nat) (x : Byte) : (s.storeByte a x).condDelay = s.condDelay := rfl
@[simp] theorem State.storeByte_stale (s : State) (a : Nat) (x : Byte) : (s.storeByte a x).stale = markStale s.stale a := rfl
@[simp] theorem State.storeByte_flushed (s : State) (a : Nat) (x : Byte) : (s.storeByte a x).flushed = dropFlushed s.flushed a := rfl
@[simp] theorem State.storeByte_mem (s : State) (a : Nat) (x : Byte) : (s.storeByte a x).mem = writeByte s.mem a x := rfl
@[simp] theorem State.storeByte_env (s : State) (a : Nat) (x : Byte) : (s.storeByte a x).env = s.env := rfl
@[simp] theorem State.storeByte_freeCount (s : State) (a : Nat) (x : Byte) : (s.storeByte a x).freeCount = s.freeCount := rfl

/-! ## `State.storeWord` -/

@[simp] theorem State.storeWord_cfg (s : State) (a : Nat) (x : Word) : (s.storeWord a x).cfg = s.cfg := rfl
@[simp] theorem State.storeWord_globals (s : State) (a : Nat) (x : Word) : (s.storeWord a x).globals = s.globals := rfl
@[simp] theorem State.storeWord_windows (s : State) (a : Nat) (x : Word) : (s.storeWord a x).windows = s.windows := rfl
@[simp] theorem State.storeWord_pc (s : State) (a : Nat) (x : Word) : (s.storeWord a x).pc = s.pc := rfl
@[simp] theorem State.storeWord_npc (s : State) (a : Nat) (x : Word) : (s.storeWord a x).npc = s.npc := rfl
@[simp] theorem State.storeWord_n (s : State) (a : Nat) (x : Word) : (s.storeWord a x).n = s.n := rfl
@[simp] theorem State.storeWord_z (s : State) (a : Nat) (x : Word) : (s.storeWord a x).z = s.z := rfl
@[simp] theorem State.storeWord_v (s : State) (a : Nat) (x : Word) : (s.storeWord a x).v = s.v := rfl
@[simp] theorem State.storeWord_c (s : State) (a : Nat) (x : Word) : (s.storeWord a x).c = s.c := rfl
@[simp] theorem State.storeWord_pil (s : State) (a : Nat) (x : Word) : (s.storeWord a x).pil = s.pil := rfl
@[simp] theorem State.storeWord_sup (s : State) (a : Nat) (x : Word) : (s.storeWord a x).sup = s.sup := rfl
@[simp] theorem State.storeWord_ps (s : State) (a : Nat) (x : Word) : (s.storeWord a x).ps = s.ps := rfl
@[simp] theorem State.storeWord_et (s : State) (a : Nat) (x : Word) : (s.storeWord a x).et = s.et := rfl
@[simp] theorem State.storeWord_cwp (s : State) (a : Nat) (x : Word) : (s.storeWord a x).cwp = s.cwp := rfl
@[simp] theorem State.storeWord_aw (s : State) (a : Nat) (x : Word) : (s.storeWord a x).aw = s.aw := rfl
@[simp] theorem State.storeWord_paw (s : State) (a : Nat) (x : Word) : (s.storeWord a x).paw = s.paw := rfl
@[simp] theorem State.storeWord_wim (s : State) (a : Nat) (x : Word) : (s.storeWord a x).wim = s.wim := rfl
@[simp] theorem State.storeWord_tba (s : State) (a : Nat) (x : Word) : (s.storeWord a x).tba = s.tba := rfl
@[simp] theorem State.storeWord_tt (s : State) (a : Nat) (x : Word) : (s.storeWord a x).tt = s.tt := rfl
@[simp] theorem State.storeWord_y (s : State) (a : Nat) (x : Word) : (s.storeWord a x).y = s.y := rfl
@[simp] theorem State.storeWord_svt (s : State) (a : Nat) (x : Word) : (s.storeWord a x).svt = s.svt := rfl
@[simp] theorem State.storeWord_accHi (s : State) (a : Nat) (x : Word) : (s.storeWord a x).accHi = s.accHi := rfl
@[simp] theorem State.storeWord_accLo (s : State) (a : Nat) (x : Word) : (s.storeWord a x).accLo = s.accLo := rfl
@[simp] theorem State.storeWord_accOverflow (s : State) (a : Nat) (x : Word) : (s.storeWord a x).accOverflow = s.accOverflow := rfl
@[simp] theorem State.storeWord_accCarry (s : State) (a : Nat) (x : Word) : (s.storeWord a x).accCarry = s.accCarry := rfl
@[simp] theorem State.storeWord_awpReg (s : State) (a : Nat) (x : Word) : (s.storeWord a x).awpReg = s.awpReg := rfl
@[simp] theorem State.storeWord_errorMode (s : State) (a : Nat) (x : Word) : (s.storeWord a x).errorMode = s.errorMode := rfl
@[simp] theorem State.storeWord_mmuEnable (s : State) (a : Nat) (x : Word) : (s.storeWord a x).mmuEnable = s.mmuEnable := rfl
@[simp] theorem State.storeWord_mmuNoFault (s : State) (a : Nat) (x : Word) : (s.storeWord a x).mmuNoFault = s.mmuNoFault := rfl
@[simp] theorem State.storeWord_ctp (s : State) (a : Nat) (x : Word) : (s.storeWord a x).ctp = s.ctp := rfl
@[simp] theorem State.storeWord_ctx (s : State) (a : Nat) (x : Word) : (s.storeWord a x).ctx = s.ctx := rfl
@[simp] theorem State.storeWord_fsr (s : State) (a : Nat) (x : Word) : (s.storeWord a x).fsr = s.fsr := rfl
@[simp] theorem State.storeWord_far (s : State) (a : Nat) (x : Word) : (s.storeWord a x).far = s.far := rfl
@[simp] theorem State.storeWord_tlb (s : State) (a : Nat) (x : Word) : (s.storeWord a x).tlb = s.tlb := rfl
@[simp] theorem State.storeWord_handlers (s : State) (a : Nat) (x : Word) : (s.storeWord a x).handlers = s.handlers := rfl
@[simp] theorem State.storeWord_iircs (s : State) (a : Nat) (x : Word) : (s.storeWord a x).iircs = s.iircs := rfl
@[simp] theorem State.storeWord_ppgs (s : State) (a : Nat) (x : Word) : (s.storeWord a x).ppgs = s.ppgs := rfl
@[simp] theorem State.storeWord_counters (s : State) (a : Nat) (x : Word) : (s.storeWord a x).counters = s.counters := rfl
@[simp] theorem State.storeWord_sysctl (s : State) (a : Nat) (x : Word) : (s.storeWord a x).sysctl = s.sysctl := rfl
@[simp] theorem State.storeWord_timers (s : State) (a : Nat) (x : Word) : (s.storeWord a x).timers = s.timers := rfl
@[simp] theorem State.storeWord_irlHost (s : State) (a : Nat) (x : Word) : (s.storeWord a x).irlHost = s.irlHost := rfl
@[simp] theorem State.storeWord_inject (s : State) (a : Nat) (x : Word) : (s.storeWord a x).inject = s.inject := rfl
@[simp] theorem State.storeWord_condDelay (s : State) (a : Nat) (x : Word) : (s.storeWord a x).condDelay = s.condDelay := rfl
@[simp] theorem State.storeWord_stale (s : State) (a : Nat) (x : Word) : (s.storeWord a x).stale = markStale s.stale a := rfl
@[simp] theorem State.storeWord_flushed (s : State) (a : Nat) (x : Word) : (s.storeWord a x).flushed = dropFlushed s.flushed a := rfl
@[simp] theorem State.storeWord_mem (s : State) (a : Nat) (x : Word) : (s.storeWord a x).mem = writeWord s.mem a x := rfl
@[simp] theorem State.storeWord_env (s : State) (a : Nat) (x : Word) : (s.storeWord a x).env = s.env := rfl
@[simp] theorem State.storeWord_freeCount (s : State) (a : Nat) (x : Word) : (s.storeWord a x).freeCount = s.freeCount := rfl

/-! ## `State.storeHalf` -/

@[simp] theorem State.storeHalf_cfg (s : State) (a : Nat) (x : BitVec 16) : (s.storeHalf a x).cfg = s.cfg := rfl
@[simp] theorem State.storeHalf_globals (s : State) (a : Nat) (x : BitVec 16) : (s.storeHalf a x).globals = s.globals := rfl
@[simp] theorem State.storeHalf_windows (s : State) (a : Nat) (x : BitVec 16) : (s.storeHalf a x).windows = s.windows := rfl
@[simp] theorem State.storeHalf_pc (s : State) (a : Nat) (x : BitVec 16) : (s.storeHalf a x).pc = s.pc := rfl
@[simp] theorem State.storeHalf_npc (s : State) (a : Nat) (x : BitVec 16) : (s.storeHalf a x).npc = s.npc := rfl
@[simp] theorem State.storeHalf_n (s : State) (a : Nat) (x : BitVec 16) : (s.storeHalf a x).n = s.n := rfl
@[simp] theorem State.storeHalf_z (s : State) (a : Nat) (x : BitVec 16) : (s.storeHalf a x).z = s.z := rfl
@[simp] theorem State.storeHalf_v (s : State) (a : Nat) (x : BitVec 16) : (s.storeHalf a x).v = s.v := rfl
@[simp] theorem State.storeHalf_c (s : State) (a : Nat) (x : BitVec 16) : (s.storeHalf a x).c = s.c := rfl
@[simp] theorem State.storeHalf_pil (s : State) (a : Nat) (x : BitVec 16) : (s.storeHalf a x).pil = s.pil := rfl
@[simp] theorem State.storeHalf_sup (s : State) (a : Nat) (x : BitVec 16) : (s.storeHalf a x).sup = s.sup := rfl
@[simp] theorem State.storeHalf_ps (s : State) (a : Nat) (x : BitVec 16) : (s.storeHalf a x).ps = s.ps := rfl
@[simp] theorem State.storeHalf_et (s : State) (a : Nat) (x : BitVec 16) : (s.storeHalf a x).et = s.et := rfl
@[simp] theorem State.storeHalf_cwp (s : State) (a : Nat) (x : BitVec 16) : (s.storeHalf a x).cwp = s.cwp := rfl
@[simp] theorem State.storeHalf_aw (s : State) (a : Nat) (x : BitVec 16) : (s.storeHalf a x).aw = s.aw := rfl
@[simp] theorem State.storeHalf_paw (s : State) (a : Nat) (x : BitVec 16) : (s.storeHalf a x).paw = s.paw := rfl
@[simp] theorem State.storeHalf_wim (s : State) (a : Nat) (x : BitVec 16) : (s.storeHalf a x).wim = s.wim := rfl
@[simp] theorem State.storeHalf_tba (s : State) (a : Nat) (x : BitVec 16) : (s.storeHalf a x).tba = s.tba := rfl
@[simp] theorem State.storeHalf_tt (s : State) (a : Nat) (x : BitVec 16) : (s.storeHalf a x).tt = s.tt := rfl
@[simp] theorem State.storeHalf_y (s : State) (a : Nat) (x : BitVec 16) : (s.storeHalf a x).y = s.y := rfl
@[simp] theorem State.storeHalf_svt (s : State) (a : Nat) (x : BitVec 16) : (s.storeHalf a x).svt = s.svt := rfl
@[simp] theorem State.storeHalf_accHi (s : State) (a : Nat) (x : BitVec 16) : (s.storeHalf a x).accHi = s.accHi := rfl
@[simp] theorem State.storeHalf_accLo (s : State) (a : Nat) (x : BitVec 16) : (s.storeHalf a x).accLo = s.accLo := rfl
@[simp] theorem State.storeHalf_accOverflow (s : State) (a : Nat) (x : BitVec 16) : (s.storeHalf a x).accOverflow = s.accOverflow := rfl
@[simp] theorem State.storeHalf_accCarry (s : State) (a : Nat) (x : BitVec 16) : (s.storeHalf a x).accCarry = s.accCarry := rfl
@[simp] theorem State.storeHalf_awpReg (s : State) (a : Nat) (x : BitVec 16) : (s.storeHalf a x).awpReg = s.awpReg := rfl
@[simp] theorem State.storeHalf_errorMode (s : State) (a : Nat) (x : BitVec 16) : (s.storeHalf a x).errorMode = s.errorMode := rfl
@[simp] theorem State.storeHalf_mmuEnable (s : State) (a : Nat) (x : BitVec 16) : (s.storeHalf a x).mmuEnable = s.mmuEnable := rfl
@[simp] theorem State.storeHalf_mmuNoFault (s : State) (a : Nat) (x : BitVec 16) : (s.storeHalf a x).mmuNoFault = s.mmuNoFault := rfl
@[simp] theorem State.storeHalf_ctp (s : State) (a : Nat) (x : BitVec 16) : (s.storeHalf a x).ctp = s.ctp := rfl
@[simp] theorem State.storeHalf_ctx (s : State) (a : Nat) (x : BitVec 16) : (s.storeHalf a x).ctx = s.ctx := rfl
@[simp] theorem State.storeHalf_fsr (s : State) (a : Nat) (x : BitVec 16) : (s.storeHalf a x).fsr = s.fsr := rfl
@[simp] theorem State.storeHalf_far (s : State) (a : Nat) (x : BitVec 16) : (s.storeHalf a x).far = s.far := rfl
@[simp] theorem State.storeHalf_tlb (s : State) (a : Nat) (x : BitVec 16) : (s.storeHalf a x).tlb = s.tlb := rfl
@[simp] theorem State.storeHalf_handlers (s : State) (a : Nat) (x : BitVec 16) : (s.storeHalf a x).handlers = s.handlers := rfl
@[simp] theorem State.storeHalf_iircs (s : State) (a : Nat) (x : BitVec 16) : (s.storeHalf a x).iircs = s.iircs := rfl
@[simp] theorem State.storeHalf_ppgs (s : State) (a : Nat) (x : BitVec 16) : (s.storeHalf a x).ppgs = s.ppgs := rfl
@[simp] theorem State.storeHalf_counters (s : State) (a : Nat) (x : BitVec 16) : (s.storeHalf a x).counters = s.counters := rfl
@[simp] theorem State.storeHalf_sysctl (s : State) (a : Nat) (x : BitVec 16) : (s.storeHalf a x).sysctl = s.sysctl := rfl
@[simp] theorem State.storeHalf_timers (s : State) (a : Nat) (x : BitVec 16) : (s.storeHalf a x).timers = s.timers := rfl
@[simp] theorem State.storeHalf_irlHost (s : State) (a : Nat) (x : BitVec 16) : (s.storeHalf a x).irlHost = s.irlHost := rfl
@[simp] theorem State.storeHalf_inject (s : State) (a : Nat) (x : BitVec 16) : (s.storeHalf a x).inject = s.inject := rfl
@[simp] theorem State.storeHalf_condDelay (s : State) (a : Nat) (x : BitVec 16) : (s.storeHalf a x).condDelay = s.condDelay := rfl
@[simp] theorem State.storeHalf_env (s : State) (a : Nat) (x : BitVec 16) : (s.storeHalf a x).env = s.env := rfl
@[simp] theorem State.storeHalf_freeCount (s : State) (a : Nat) (x : BitVec 16) : (s.storeHalf a x).freeCount = s.freeCount := rfl

/-! ## Writing a register -/

@[simp] theorem State.setRegIn_cfg (s : State) (w : Nat) (r : RegNum) (x : Word) : (s.setRegIn w r x).cfg = s.cfg := by
  unfold State.setRegIn; split <;> (try split) <;> rfl
@[simp] theorem State.setReg_cfg (s : State) (r : RegNum) (x : Word) : (s.setReg r x).cfg = s.cfg :=
  s.setRegIn_cfg s.window r x
@[simp] theorem State.setRegIn_pc (s : State) (w : Nat) (r : RegNum) (x : Word) : (s.setRegIn w r x).pc = s.pc := by
  unfold State.setRegIn; split <;> (try split) <;> rfl
@[simp] theorem State.setReg_pc (s : State) (r : RegNum) (x : Word) : (s.setReg r x).pc = s.pc :=
  s.setRegIn_pc s.window r x
@[simp] theorem State.setRegIn_npc (s : State) (w : Nat) (r : RegNum) (x : Word) : (s.setRegIn w r x).npc = s.npc := by
  unfold State.setRegIn; split <;> (try split) <;> rfl
@[simp] theorem State.setReg_npc (s : State) (r : RegNum) (x : Word) : (s.setReg r x).npc = s.npc :=
  s.setRegIn_npc s.window r x
@[simp] theorem State.setRegIn_n (s : State) (w : Nat) (r : RegNum) (x : Word) : (s.setRegIn w r x).n = s.n := by
  unfold State.setRegIn; split <;> (try split) <;> rfl
@[simp] theorem State.setReg_n (s : State) (r : RegNum) (x : Word) : (s.setReg r x).n = s.n :=
  s.setRegIn_n s.window r x
@[simp] theorem State.setRegIn_z (s : State) (w : Nat) (r : RegNum) (x : Word) : (s.setRegIn w r x).z = s.z := by
  unfold State.setRegIn; split <;> (try split) <;> rfl
@[simp] theorem State.setReg_z (s : State) (r : RegNum) (x : Word) : (s.setReg r x).z = s.z :=
  s.setRegIn_z s.window r x
@[simp] theorem State.setRegIn_v (s : State) (w : Nat) (r : RegNum) (x : Word) : (s.setRegIn w r x).v = s.v := by
  unfold State.setRegIn; split <;> (try split) <;> rfl
@[simp] theorem State.setReg_v (s : State) (r : RegNum) (x : Word) : (s.setReg r x).v = s.v :=
  s.setRegIn_v s.window r x
@[simp] theorem State.setRegIn_c (s : State) (w : Nat) (r : RegNum) (x : Word) : (s.setRegIn w r x).c = s.c := by
  unfold State.setRegIn; split <;> (try split) <;> rfl
@[simp] theorem State.setReg_c (s : State) (r : RegNum) (x : Word) : (s.setReg r x).c = s.c :=
  s.setRegIn_c s.window r x
@[simp] theorem State.setRegIn_pil (s : State) (w : Nat) (r : RegNum) (x : Word) : (s.setRegIn w r x).pil = s.pil := by
  unfold State.setRegIn; split <;> (try split) <;> rfl
@[simp] theorem State.setReg_pil (s : State) (r : RegNum) (x : Word) : (s.setReg r x).pil = s.pil :=
  s.setRegIn_pil s.window r x
@[simp] theorem State.setRegIn_sup (s : State) (w : Nat) (r : RegNum) (x : Word) : (s.setRegIn w r x).sup = s.sup := by
  unfold State.setRegIn; split <;> (try split) <;> rfl
@[simp] theorem State.setReg_sup (s : State) (r : RegNum) (x : Word) : (s.setReg r x).sup = s.sup :=
  s.setRegIn_sup s.window r x
@[simp] theorem State.setRegIn_ps (s : State) (w : Nat) (r : RegNum) (x : Word) : (s.setRegIn w r x).ps = s.ps := by
  unfold State.setRegIn; split <;> (try split) <;> rfl
@[simp] theorem State.setReg_ps (s : State) (r : RegNum) (x : Word) : (s.setReg r x).ps = s.ps :=
  s.setRegIn_ps s.window r x
@[simp] theorem State.setRegIn_et (s : State) (w : Nat) (r : RegNum) (x : Word) : (s.setRegIn w r x).et = s.et := by
  unfold State.setRegIn; split <;> (try split) <;> rfl
@[simp] theorem State.setReg_et (s : State) (r : RegNum) (x : Word) : (s.setReg r x).et = s.et :=
  s.setRegIn_et s.window r x
@[simp] theorem State.setRegIn_cwp (s : State) (w : Nat) (r : RegNum) (x : Word) : (s.setRegIn w r x).cwp = s.cwp := by
  unfold State.setRegIn; split <;> (try split) <;> rfl
@[simp] theorem State.setReg_cwp (s : State) (r : RegNum) (x : Word) : (s.setReg r x).cwp = s.cwp :=
  s.setRegIn_cwp s.window r x
@[simp] theorem State.setRegIn_aw (s : State) (w : Nat) (r : RegNum) (x : Word) : (s.setRegIn w r x).aw = s.aw := by
  unfold State.setRegIn; split <;> (try split) <;> rfl
@[simp] theorem State.setReg_aw (s : State) (r : RegNum) (x : Word) : (s.setReg r x).aw = s.aw :=
  s.setRegIn_aw s.window r x
@[simp] theorem State.setRegIn_paw (s : State) (w : Nat) (r : RegNum) (x : Word) : (s.setRegIn w r x).paw = s.paw := by
  unfold State.setRegIn; split <;> (try split) <;> rfl
@[simp] theorem State.setReg_paw (s : State) (r : RegNum) (x : Word) : (s.setReg r x).paw = s.paw :=
  s.setRegIn_paw s.window r x
@[simp] theorem State.setRegIn_wim (s : State) (w : Nat) (r : RegNum) (x : Word) : (s.setRegIn w r x).wim = s.wim := by
  unfold State.setRegIn; split <;> (try split) <;> rfl
@[simp] theorem State.setReg_wim (s : State) (r : RegNum) (x : Word) : (s.setReg r x).wim = s.wim :=
  s.setRegIn_wim s.window r x
@[simp] theorem State.setRegIn_tba (s : State) (w : Nat) (r : RegNum) (x : Word) : (s.setRegIn w r x).tba = s.tba := by
  unfold State.setRegIn; split <;> (try split) <;> rfl
@[simp] theorem State.setReg_tba (s : State) (r : RegNum) (x : Word) : (s.setReg r x).tba = s.tba :=
  s.setRegIn_tba s.window r x
@[simp] theorem State.setRegIn_tt (s : State) (w : Nat) (r : RegNum) (x : Word) : (s.setRegIn w r x).tt = s.tt := by
  unfold State.setRegIn; split <;> (try split) <;> rfl
@[simp] theorem State.setReg_tt (s : State) (r : RegNum) (x : Word) : (s.setReg r x).tt = s.tt :=
  s.setRegIn_tt s.window r x
@[simp] theorem State.setRegIn_y (s : State) (w : Nat) (r : RegNum) (x : Word) : (s.setRegIn w r x).y = s.y := by
  unfold State.setRegIn; split <;> (try split) <;> rfl
@[simp] theorem State.setReg_y (s : State) (r : RegNum) (x : Word) : (s.setReg r x).y = s.y :=
  s.setRegIn_y s.window r x
@[simp] theorem State.setRegIn_svt (s : State) (w : Nat) (r : RegNum) (x : Word) : (s.setRegIn w r x).svt = s.svt := by
  unfold State.setRegIn; split <;> (try split) <;> rfl
@[simp] theorem State.setReg_svt (s : State) (r : RegNum) (x : Word) : (s.setReg r x).svt = s.svt :=
  s.setRegIn_svt s.window r x
@[simp] theorem State.setRegIn_accHi (s : State) (w : Nat) (r : RegNum) (x : Word) : (s.setRegIn w r x).accHi = s.accHi := by
  unfold State.setRegIn; split <;> (try split) <;> rfl
@[simp] theorem State.setReg_accHi (s : State) (r : RegNum) (x : Word) : (s.setReg r x).accHi = s.accHi :=
  s.setRegIn_accHi s.window r x
@[simp] theorem State.setRegIn_accLo (s : State) (w : Nat) (r : RegNum) (x : Word) : (s.setRegIn w r x).accLo = s.accLo := by
  unfold State.setRegIn; split <;> (try split) <;> rfl
@[simp] theorem State.setReg_accLo (s : State) (r : RegNum) (x : Word) : (s.setReg r x).accLo = s.accLo :=
  s.setRegIn_accLo s.window r x
@[simp] theorem State.setRegIn_accOverflow (s : State) (w : Nat) (r : RegNum) (x : Word) : (s.setRegIn w r x).accOverflow = s.accOverflow := by
  unfold State.setRegIn; split <;> (try split) <;> rfl
@[simp] theorem State.setReg_accOverflow (s : State) (r : RegNum) (x : Word) : (s.setReg r x).accOverflow = s.accOverflow :=
  s.setRegIn_accOverflow s.window r x
@[simp] theorem State.setRegIn_accCarry (s : State) (w : Nat) (r : RegNum) (x : Word) : (s.setRegIn w r x).accCarry = s.accCarry := by
  unfold State.setRegIn; split <;> (try split) <;> rfl
@[simp] theorem State.setReg_accCarry (s : State) (r : RegNum) (x : Word) : (s.setReg r x).accCarry = s.accCarry :=
  s.setRegIn_accCarry s.window r x
@[simp] theorem State.setRegIn_awpReg (s : State) (w : Nat) (r : RegNum) (x : Word) : (s.setRegIn w r x).awpReg = s.awpReg := by
  unfold State.setRegIn; split <;> (try split) <;> rfl
@[simp] theorem State.setReg_awpReg (s : State) (r : RegNum) (x : Word) : (s.setReg r x).awpReg = s.awpReg :=
  s.setRegIn_awpReg s.window r x
@[simp] theorem State.setRegIn_errorMode (s : State) (w : Nat) (r : RegNum) (x : Word) : (s.setRegIn w r x).errorMode = s.errorMode := by
  unfold State.setRegIn; split <;> (try split) <;> rfl
@[simp] theorem State.setReg_errorMode (s : State) (r : RegNum) (x : Word) : (s.setReg r x).errorMode = s.errorMode :=
  s.setRegIn_errorMode s.window r x
@[simp] theorem State.setRegIn_mmuEnable (s : State) (w : Nat) (r : RegNum) (x : Word) : (s.setRegIn w r x).mmuEnable = s.mmuEnable := by
  unfold State.setRegIn; split <;> (try split) <;> rfl
@[simp] theorem State.setReg_mmuEnable (s : State) (r : RegNum) (x : Word) : (s.setReg r x).mmuEnable = s.mmuEnable :=
  s.setRegIn_mmuEnable s.window r x
@[simp] theorem State.setRegIn_mmuNoFault (s : State) (w : Nat) (r : RegNum) (x : Word) : (s.setRegIn w r x).mmuNoFault = s.mmuNoFault := by
  unfold State.setRegIn; split <;> (try split) <;> rfl
@[simp] theorem State.setReg_mmuNoFault (s : State) (r : RegNum) (x : Word) : (s.setReg r x).mmuNoFault = s.mmuNoFault :=
  s.setRegIn_mmuNoFault s.window r x
@[simp] theorem State.setRegIn_ctp (s : State) (w : Nat) (r : RegNum) (x : Word) : (s.setRegIn w r x).ctp = s.ctp := by
  unfold State.setRegIn; split <;> (try split) <;> rfl
@[simp] theorem State.setReg_ctp (s : State) (r : RegNum) (x : Word) : (s.setReg r x).ctp = s.ctp :=
  s.setRegIn_ctp s.window r x
@[simp] theorem State.setRegIn_ctx (s : State) (w : Nat) (r : RegNum) (x : Word) : (s.setRegIn w r x).ctx = s.ctx := by
  unfold State.setRegIn; split <;> (try split) <;> rfl
@[simp] theorem State.setReg_ctx (s : State) (r : RegNum) (x : Word) : (s.setReg r x).ctx = s.ctx :=
  s.setRegIn_ctx s.window r x
@[simp] theorem State.setRegIn_fsr (s : State) (w : Nat) (r : RegNum) (x : Word) : (s.setRegIn w r x).fsr = s.fsr := by
  unfold State.setRegIn; split <;> (try split) <;> rfl
@[simp] theorem State.setReg_fsr (s : State) (r : RegNum) (x : Word) : (s.setReg r x).fsr = s.fsr :=
  s.setRegIn_fsr s.window r x
@[simp] theorem State.setRegIn_far (s : State) (w : Nat) (r : RegNum) (x : Word) : (s.setRegIn w r x).far = s.far := by
  unfold State.setRegIn; split <;> (try split) <;> rfl
@[simp] theorem State.setReg_far (s : State) (r : RegNum) (x : Word) : (s.setReg r x).far = s.far :=
  s.setRegIn_far s.window r x
@[simp] theorem State.setRegIn_tlb (s : State) (w : Nat) (r : RegNum) (x : Word) : (s.setRegIn w r x).tlb = s.tlb := by
  unfold State.setRegIn; split <;> (try split) <;> rfl
@[simp] theorem State.setReg_tlb (s : State) (r : RegNum) (x : Word) : (s.setReg r x).tlb = s.tlb :=
  s.setRegIn_tlb s.window r x
@[simp] theorem State.setRegIn_handlers (s : State) (w : Nat) (r : RegNum) (x : Word) : (s.setRegIn w r x).handlers = s.handlers := by
  unfold State.setRegIn; split <;> (try split) <;> rfl
@[simp] theorem State.setReg_handlers (s : State) (r : RegNum) (x : Word) : (s.setReg r x).handlers = s.handlers :=
  s.setRegIn_handlers s.window r x
@[simp] theorem State.setRegIn_iircs (s : State) (w : Nat) (r : RegNum) (x : Word) : (s.setRegIn w r x).iircs = s.iircs := by
  unfold State.setRegIn; split <;> (try split) <;> rfl
@[simp] theorem State.setReg_iircs (s : State) (r : RegNum) (x : Word) : (s.setReg r x).iircs = s.iircs :=
  s.setRegIn_iircs s.window r x
@[simp] theorem State.setRegIn_ppgs (s : State) (w : Nat) (r : RegNum) (x : Word) : (s.setRegIn w r x).ppgs = s.ppgs := by
  unfold State.setRegIn; split <;> (try split) <;> rfl
@[simp] theorem State.setReg_ppgs (s : State) (r : RegNum) (x : Word) : (s.setReg r x).ppgs = s.ppgs :=
  s.setRegIn_ppgs s.window r x
@[simp] theorem State.setRegIn_counters (s : State) (w : Nat) (r : RegNum) (x : Word) : (s.setRegIn w r x).counters = s.counters := by
  unfold State.setRegIn; split <;> (try split) <;> rfl
@[simp] theorem State.setReg_counters (s : State) (r : RegNum) (x : Word) : (s.setReg r x).counters = s.counters :=
  s.setRegIn_counters s.window r x
@[simp] theorem State.setRegIn_sysctl (s : State) (w : Nat) (r : RegNum) (x : Word) : (s.setRegIn w r x).sysctl = s.sysctl := by
  unfold State.setRegIn; split <;> (try split) <;> rfl
@[simp] theorem State.setReg_sysctl (s : State) (r : RegNum) (x : Word) : (s.setReg r x).sysctl = s.sysctl :=
  s.setRegIn_sysctl s.window r x
@[simp] theorem State.setRegIn_timers (s : State) (w : Nat) (r : RegNum) (x : Word) : (s.setRegIn w r x).timers = s.timers := by
  unfold State.setRegIn; split <;> (try split) <;> rfl
@[simp] theorem State.setReg_timers (s : State) (r : RegNum) (x : Word) : (s.setReg r x).timers = s.timers :=
  s.setRegIn_timers s.window r x
@[simp] theorem State.setRegIn_irlHost (s : State) (w : Nat) (r : RegNum) (x : Word) : (s.setRegIn w r x).irlHost = s.irlHost := by
  unfold State.setRegIn; split <;> (try split) <;> rfl
@[simp] theorem State.setReg_irlHost (s : State) (r : RegNum) (x : Word) : (s.setReg r x).irlHost = s.irlHost :=
  s.setRegIn_irlHost s.window r x
@[simp] theorem State.setRegIn_inject (s : State) (w : Nat) (r : RegNum) (x : Word) : (s.setRegIn w r x).inject = s.inject := by
  unfold State.setRegIn; split <;> (try split) <;> rfl
@[simp] theorem State.setReg_inject (s : State) (r : RegNum) (x : Word) : (s.setReg r x).inject = s.inject :=
  s.setRegIn_inject s.window r x
@[simp] theorem State.setRegIn_condDelay (s : State) (w : Nat) (r : RegNum) (x : Word) : (s.setRegIn w r x).condDelay = s.condDelay := by
  unfold State.setRegIn; split <;> (try split) <;> rfl
@[simp] theorem State.setReg_condDelay (s : State) (r : RegNum) (x : Word) : (s.setReg r x).condDelay = s.condDelay :=
  s.setRegIn_condDelay s.window r x
@[simp] theorem State.setRegIn_stale (s : State) (w : Nat) (r : RegNum) (x : Word) : (s.setRegIn w r x).stale = s.stale := by
  unfold State.setRegIn; split <;> (try split) <;> rfl
@[simp] theorem State.setReg_stale (s : State) (r : RegNum) (x : Word) : (s.setReg r x).stale = s.stale :=
  s.setRegIn_stale s.window r x
@[simp] theorem State.setRegIn_flushed (s : State) (w : Nat) (r : RegNum) (x : Word) : (s.setRegIn w r x).flushed = s.flushed := by
  unfold State.setRegIn; split <;> (try split) <;> rfl
@[simp] theorem State.setReg_flushed (s : State) (r : RegNum) (x : Word) : (s.setReg r x).flushed = s.flushed :=
  s.setRegIn_flushed s.window r x
@[simp] theorem State.setRegIn_mem (s : State) (w : Nat) (r : RegNum) (x : Word) : (s.setRegIn w r x).mem = s.mem := by
  unfold State.setRegIn; split <;> (try split) <;> rfl
@[simp] theorem State.setReg_mem (s : State) (r : RegNum) (x : Word) : (s.setReg r x).mem = s.mem :=
  s.setRegIn_mem s.window r x
@[simp] theorem State.setRegIn_env (s : State) (w : Nat) (r : RegNum) (x : Word) : (s.setRegIn w r x).env = s.env := by
  unfold State.setRegIn; split <;> (try split) <;> rfl
@[simp] theorem State.setReg_env (s : State) (r : RegNum) (x : Word) : (s.setReg r x).env = s.env :=
  s.setRegIn_env s.window r x
@[simp] theorem State.setRegIn_freeCount (s : State) (w : Nat) (r : RegNum) (x : Word) : (s.setRegIn w r x).freeCount = s.freeCount := by
  unfold State.setRegIn; split <;> (try split) <;> rfl
@[simp] theorem State.setReg_freeCount (s : State) (r : RegNum) (x : Word) : (s.setReg r x).freeCount = s.freeCount :=
  s.setRegIn_freeCount s.window r x

end Sys2Proof.Machine
end

