-- ==== Sys2Proof/Laws/Memory.lean ====
section
/-! SUPPORT. Physical memory: the canonical form is kept by every operation, a read gives what was last written there, and a
write leaves every other byte alone. -/

namespace Sys2Proof.Machine

theorem memoryWfFrom_mono {lo lo' : Nat} {m : List Host.Cell} (h : memoryWfFrom lo m = true) (hl : lo' ≤ lo) :
    memoryWfFrom lo' m = true := by
  cases m with
  | nil => rfl
  | cons c rest =>
    obtain ⟨k, b⟩ := c
    simp only [memoryWfFrom, Bool.and_eq_true, decide_eq_true_eq] at h ⊢
    exact ⟨⟨⟨by omega, h.1.1.2⟩, h.1.2⟩, h.2⟩

/-- Below the first listed address nothing is listed. -/
theorem readByte_below {lo : Nat} {m : List Host.Cell} (h : memoryWfFrom lo m = true) {a : Nat} (ha : a < lo) :
    readByte m a = unlistedByte := by
  cases m with
  | nil => rfl
  | cons c rest =>
    obtain ⟨k, b⟩ := c
    simp only [memoryWfFrom, Bool.and_eq_true, decide_eq_true_eq] at h
    have h1 : a ≠ k := by omega
    have h2 : a < k := by omega
    simp [readByte, h1, h2]

theorem writeByte_wfFrom {lo : Nat} {m : List Host.Cell} (h : memoryWfFrom lo m = true) {a : Nat} (x : Byte) (hlo : lo ≤ a)
    (ha : a < 2 ^ 36) : memoryWfFrom lo (writeByte m a x) = true := by
  induction m generalizing lo with
  | nil =>
    unfold writeByte
    by_cases hx : x = unlistedByte
    · rw [if_pos hx]; rfl
    · rw [if_neg hx]; simp [memoryWfFrom, hlo, hx]; omega
  | cons c rest ih =>
    obtain ⟨k, b⟩ := c
    have h' := h
    simp only [memoryWfFrom, Bool.and_eq_true, decide_eq_true_eq] at h'
    obtain ⟨⟨⟨h1, h2⟩, h3⟩, h4⟩ := h'
    unfold writeByte
    by_cases hk : a = k
    · rw [if_pos hk]
      by_cases hx : x = unlistedByte
      · rw [if_pos hx]; exact memoryWfFrom_mono h4 (by omega)
      · rw [if_neg hx]; subst hk; simp [memoryWfFrom, hlo, hx, h4]; omega
    · rw [if_neg hk]
      by_cases hlt : a < k
      · rw [if_pos hlt]
        by_cases hx : x = unlistedByte
        · rw [if_pos hx]; exact h
        · rw [if_neg hx]
          simp only [memoryWfFrom, Bool.and_eq_true, decide_eq_true_eq]
          exact ⟨⟨⟨hlo, ha⟩, hx⟩, ⟨⟨⟨by omega, h2⟩, h3⟩, h4⟩⟩
      · rw [if_neg hlt]
        simp only [memoryWfFrom, Bool.and_eq_true, decide_eq_true_eq]
        exact ⟨⟨⟨h1, h2⟩, h3⟩, ih h4 (by omega)⟩

theorem readByte_writeByte_from {lo : Nat} {m : List Host.Cell} (h : memoryWfFrom lo m = true) (a b : Nat) (x : Byte) :
    readByte (writeByte m a x) b = if b = a then x else readByte m b := by
  induction m generalizing lo with
  | nil =>
    unfold writeByte
    by_cases hx : x = unlistedByte
    · rw [if_pos hx]; by_cases hb : b = a <;> simp [readByte, hx, hb]
    · rw [if_neg hx]; by_cases hb : b = a <;> simp [readByte, hb]
  | cons c rest ih =>
    obtain ⟨k, v⟩ := c
    simp only [memoryWfFrom, Bool.and_eq_true, decide_eq_true_eq] at h
    obtain ⟨⟨⟨h1, h2⟩, h3⟩, h4⟩ := h
    have hbelow : ∀ a, a < k + 1 → readByte rest a = unlistedByte := fun a ha => readByte_below h4 ha
    unfold writeByte
    by_cases hk : a = k
    · subst hk
      rw [if_pos rfl]
      by_cases hx : x = unlistedByte
      · rw [if_pos hx]
        by_cases hb : b = a
        · rw [if_pos hb, hb, hx]; exact hbelow a (by omega)
        · rw [if_neg hb]
          by_cases hlt : b < a
          · simp only [readByte, if_neg hb, if_pos hlt]; exact hbelow b (by omega)
          · simp only [readByte, if_neg hb, if_neg hlt]
      · rw [if_neg hx]
        by_cases hb : b = a
        · rw [if_pos hb]; simp [readByte, hb]
        · rw [if_neg hb]; simp only [readByte, if_neg hb]
    · rw [if_neg hk]
      by_cases hlt : a < k
      · rw [if_pos hlt]
        by_cases hx : x = unlistedByte
        · rw [if_pos hx]
          by_cases hb : b = a
          · rw [if_pos hb, hb, hx]; simp only [readByte, if_neg hk, if_pos hlt]
          · rw [if_neg hb]
        · rw [if_neg hx]
          by_cases hb : b = a
          · rw [if_pos hb]; simp [readByte, hb]
          · rw [if_neg hb]
            by_cases hba : b < a
            · have : b < k := by omega
              have hne : b ≠ k := by omega
              simp only [readByte, if_neg hb, if_pos hba, if_neg hne, if_pos this]
            · simp only [readByte, if_neg hb, if_neg hba]
      · rw [if_neg hlt]
        have hka : k ≠ a := fun e => hk e.symm
        by_cases hbk : b = k
        · have : b ≠ a := by omega
          rw [if_neg this]; simp only [readByte, if_pos hbk]
        · by_cases hbl : b < k
          · have : b ≠ a := by omega
            rw [if_neg this]; simp only [readByte, if_neg hbk, if_pos hbl]
          · simp only [readByte, if_neg hbk, if_neg hbl]; exact ih h4

/-- A read after a write of one byte. -/
theorem readByte_writeByte {m : List Host.Cell} (h : Memory.wf m = true) (a b : Nat) (x : Byte) :
    readByte (writeByte m a x) b = if b = a then x else readByte m b := readByte_writeByte_from h a b x

/-- A write of a byte keeps the canonical form. -/
theorem writeByte_wf {m : List Host.Cell} (h : Memory.wf m = true) {a : Nat} (x : Byte) (ha : a < 2 ^ 36) :
    Memory.wf (writeByte m a x) = true := writeByte_wfFrom h x (Nat.zero_le a) ha

/-- A write of a word keeps the canonical form. -/
theorem writeWord_wf {m : List Host.Cell} (h : Memory.wf m = true) {a : Nat} (x : Word) (ha : a + 3 < 2 ^ 36) :
    Memory.wf (writeWord m a x) = true :=
  writeByte_wf (writeByte_wf (writeByte_wf (writeByte_wf h _ (by omega)) _ (by omega)) _ (by omega)) _ ha

/-- What each byte reads as after a write of a word. -/
theorem readByte_writeWord {m : List Host.Cell} (h : Memory.wf m = true) {a : Nat} (x : Word) (ha : a + 3 < 2 ^ 36) (b : Nat) :
    readByte (writeWord m a x) b =
      if b = a + 3 then byteOfWord x 3 else if b = a + 2 then byteOfWord x 2 else if b = a + 1 then byteOfWord x 1
      else if b = a then byteOfWord x 0 else readByte m b := by
  have h0 := writeByte_wf h (a := a) (byteOfWord x 0) (by omega)
  have h1 := writeByte_wf h0 (a := a + 1) (byteOfWord x 1) (by omega)
  have h2 := writeByte_wf h1 (a := a + 2) (byteOfWord x 2) (by omega)
  unfold writeWord
  rw [readByte_writeByte h2, readByte_writeByte h1, readByte_writeByte h0, readByte_writeByte h]

theorem wordOfBytes_bytesOfWord (x : Word) :
    wordOfBytes (byteOfWord x 0) (byteOfWord x 1) (byteOfWord x 2) (byteOfWord x 3) = x := by
  simp only [wordOfBytes, byteOfWord]
  apply BitVec.eq_of_getLsbD_eq
  intro i hi
  simp only [BitVec.getLsbD_append, BitVec.getLsbD_extractLsb']
  by_cases h1 : i < 8
  · simp [h1]
  by_cases h2 : i - 8 < 8
  · simp only [h1, h2, if_true, if_false, decide_true, Bool.true_and]; congr 1; omega
  by_cases h3 : i - 8 - 8 < 8
  · simp only [h1, h2, h3, if_true, if_false, decide_true, Bool.true_and]; congr 1; omega
  have h4 : i - 8 - 8 - 8 < 8 := by omega
  simp only [h1, h2, h3, h4, if_false, decide_true, Bool.true_and]; congr 1; omega

/-- A word read back where it was stored. -/
theorem wordAt_storeWord {s : State} (h : Memory.wf s.mem = true) {a : Nat} (x : Word) (ha : a + 3 < 2 ^ 36) :
    (s.storeWord a x).wordAt a = x := by
  simp only [State.wordAt, State.byteAt, State.storeWord_mem, readByte_writeWord h x ha]
  simp [wordOfBytes_bytesOfWord]

/-- A store of a word leaves every byte outside it alone. -/
theorem storeWord_outside {s : State} (h : Memory.wf s.mem = true) {a : Nat} (x : Word) (ha : a + 3 < 2 ^ 36) :
    MemoryOutside s (s.storeWord a x) a 4 := by
  intro b hb
  simp only [State.byteAt, State.storeWord_mem, readByte_writeWord h x ha]
  rw [if_neg (by omega), if_neg (by omega), if_neg (by omega), if_neg (by omega)]

/-- A store of a byte leaves every other byte alone. -/
theorem storeByte_outside {s : State} (h : Memory.wf s.mem = true) (a : Nat) (x : Byte) :
    MemoryOutside s (s.storeByte a x) a 1 := by
  intro b hb
  simp only [State.byteAt, State.storeByte_mem, readByte_writeByte h]
  rw [if_neg (by omega)]

/-- A store of a halfword leaves every byte outside it alone. -/
theorem storeHalf_outside {s : State} (h : Memory.wf s.mem = true) {a : Nat} (x : BitVec 16) (ha : a + 1 < 2 ^ 36) :
    MemoryOutside s (s.storeHalf a x) a 2 := by
  intro b hb
  have h0 := writeByte_wf h (a := a) (x.extractLsb' 8 8) (by omega)
  simp only [State.byteAt, State.storeHalf]
  rw [readByte_writeByte h0, readByte_writeByte h, if_neg (by omega), if_neg (by omega)]

/-- The memory that any list of cells stands for is in canonical form. -/
theorem canonicalMemory_wf (l : List Host.Cell) : Memory.wf (canonicalMemory l) = true := by
  suffices h : ∀ m, Memory.wf m = true →
      Memory.wf (l.foldl (fun m c => if c.1 < 2 ^ 36 then writeByte m c.1 c.2 else m) m) = true from h [] rfl
  induction l with
  | nil => exact fun _ h => h
  | cons c rest ih =>
    intro m h
    refine ih _ ?_
    dsimp only
    split
    · exact writeByte_wf h _ ‹_›
    · exact h

/-- Which FLUSHes stay recorded after a store. -/
theorem mem_dropFlushed (l : List (Nat × Nat)) (a : Nat) (p : Nat × Nat) :
    p ∈ dropFlushed l a ↔ p ∈ l ∧ p.1 ≠ wordBase a := by
  simp [dropFlushed]

theorem mem_markStale (l : List Nat) (a b : Nat) : b ∈ markStale l a ↔ b ∈ l ∨ b = wordBase a := by
  unfold markStale
  split
  · rename_i hc
    have : wordBase a ∈ l := by simpa using hc
    constructor
    · exact Or.inl
    · rintro (h | h)
      · exact h
      · exact h ▸ this
  · rw [List.mem_cons]; tauto

/-- Two canonical memories that read alike are the same list. -/
theorem memory_ext {lo : Nat} {m m' : List Host.Cell} (h : memoryWfFrom lo m = true) (h' : memoryWfFrom lo m' = true)
    (he : ∀ a, readByte m a = readByte m' a) : m = m' := by
  induction m generalizing lo m' with
  | nil =>
    cases m' with
    | nil => rfl
    | cons c rest =>
      obtain ⟨k, b⟩ := c
      simp only [memoryWfFrom, Bool.and_eq_true, decide_eq_true_eq] at h'
      have := he k
      simp [readByte] at this
      exact absurd this.symm h'.1.2
  | cons c rest ih =>
    obtain ⟨k, b⟩ := c
    have hk := h
    simp only [memoryWfFrom, Bool.and_eq_true, decide_eq_true_eq] at hk
    cases m' with
    | nil =>
      have := he k
      simp [readByte] at this
      exact absurd this hk.1.2
    | cons c' rest' =>
      obtain ⟨k', b'⟩ := c'
      have hk' := h'
      simp only [memoryWfFrom, Bool.and_eq_true, decide_eq_true_eq] at hk'
      have e : k = k' := by
        rcases Nat.lt_trichotomy k k' with hlt | heq | hgt
        · have := he k
          have hne : k ≠ k' := by omega
          simp [readByte, hlt, hne] at this
          exact absurd this hk.1.2
        · exact heq
        · have := he k'
          have hne : k' ≠ k := by omega
          simp [readByte, hgt, hne] at this
          exact absurd this.symm hk'.1.2
      subst e
      have eb : b = b' := by simpa [readByte] using he k
      subst eb
      refine congrArg _ (ih hk.2 hk'.2 fun a => ?_)
      by_cases ha : a < k + 1
      · rw [readByte_below hk.2 ha, readByte_below hk'.2 ha]
      · have := he a
        have h1 : a ≠ k := by omega
        have h2 : ¬ a < k := by omega
        simpa [readByte, h1, h2] using this

/-- Memory at reset is in canonical form. -/
theorem reset_memory_wf : Memory.wf State.reset.mem = true := rfl

end Sys2Proof.Machine
end

