-- ==== Sys2Proof/Laws/Access.lean ====
section
/-! SUPPORT. What a translation and a data access can do: one lemma for each shared operation, so that no later proof unfolds
the MMU. -/

namespace Sys2Proof.Machine

/-! ## Results of accesses -/

@[simp] theorem Access.bind_ok {α β : Type} (a : α) (s : State) (k : α → State → Access β) :
    (Access.ok a s).bind k = k a s := rfl
@[simp] theorem Access.bind_trap {α β : Type} (tt : TrapType) (s : State) (k : α → State → Access β) :
    (Access.trap tt s : Access α).bind k = .trap tt s := rfl
@[simp] theorem Access.bind_fault {α β : Type} (r : Fault) (k : α → State → Access β) :
    (Access.fault r : Access α).bind k = .fault r := rfl
@[simp] theorem Access.bind_refused {α β : Type} (r : Refusal) (k : α → State → Access β) :
    (Access.refused r : Access α).bind k = .refused r := rfl
@[simp] theorem Access.outcome_ok {α : Type} (a : α) (s : State) (k : α → State → State) :
    (Access.ok a s).outcome k = .next (k a s) := rfl
@[simp] theorem Access.outcome_trap {α : Type} (tt : TrapType) (s : State) (k : α → State → State) :
    (Access.trap tt s : Access α).outcome k = takeTrap s tt := rfl
@[simp] theorem Access.outcome_fault {α : Type} (r : Fault) (k : α → State → State) :
    (Access.fault r : Access α).outcome k = .fault r := rfl
@[simp] theorem Access.outcome_refused {α : Type} (r : Refusal) (k : α → State → State) :
    (Access.refused r : Access α).outcome k = .refused r := rfl

/-- An access that succeeds after another went through both. -/
theorem Access.bind_eq_ok {α β : Type} {x : Access α} {k : α → State → Access β} {b : β} {t : State}
    (h : x.bind k = .ok b t) : ∃ a u, x = .ok a u ∧ k a u = .ok b t := by
  cases x with
  | ok a u => exact ⟨a, u, rfl, h⟩
  | trap tt u => cases h
  | fault r => cases h
  | refused r => cases h

/-! ## What a translation leaves alone -/

theorem OnlyTranslation.refl (s : State) : OnlyTranslation s s := rfl

theorem OnlyTranslation.trans {s t u : State} (h1 : OnlyTranslation s t) (h2 : OnlyTranslation t u) : OnlyTranslation s u := by
  unfold OnlyTranslation at *
  rw [h2, h1]

theorem touchPte_only (s : State) (addr : Nat) (w : Bool) : OnlyTranslation s (s.touchPte addr w) := rfl

theorem setTlb_only (s : State) (l : List TlbEntry) : OnlyTranslation s { s with tlb := l } := rfl

theorem enterTlb_only (s : State) (e : TlbEntry) : OnlyTranslation s (s.enterTlb e) := by
  unfold State.enterTlb
  split
  · rfl
  · rfl

theorem touchHit_only (s : State) (va : Word) (e : TlbEntry) (w : Bool) : OnlyTranslation s (s.touchHit va e w) := by
  unfold State.touchHit
  split
  · split
    · exact touchPte_only ..
    · rfl
    · rfl
  · rfl

/-- A page that is used gives an address in it and the update of R and M. -/
theorem usePage_ok {s : State} {va : Word} {asi : Asi} {kind : AccessKind} {w0 : Word} {level : BitVec 2}
    {f : State → State} {pa : PhysAddr} {t : State} (h : usePage s va asi kind w0 level f = .ok pa t) :
    t = f s ∧ pa = pageAddress (ppnField (s.cfg.dropPpn w0)) level va
      ∧ accAllows (accField w0) (asiSupervisor asi) kind = true := by
  unfold usePage mmuFault at h
  split at h
  · rename_i ha
    injection h with h1 h2
    exact ⟨h2.symm, h1.symm, ha⟩
  · split at h <;> cases h

/-- The low bits of a concatenation are those of its low part. -/
theorem append_mod {n m k : Nat} (x : BitVec n) (y : BitVec m) (h : k ≤ m) : (x ++ y).toNat % 2 ^ k = y.toNat % 2 ^ k := by
  rw [BitVec.toNat_append, ← Nat.shiftLeft_add_eq_or_of_lt y.isLt, Nat.shiftLeft_eq]
  obtain ⟨d, rfl⟩ := Nat.exists_eq_add_of_le h
  rw [show x.toNat * 2 ^ (k + d) = 2 ^ k * (x.toNat * 2 ^ d) by ring, Nat.mul_add_mod]

/-- The offset within a page is not translated (spec/20_memory.md R132). -/
theorem pageAddress_offset (ppn : BitVec 24) (level : BitVec 2) (va : Word) :
    (pageAddress ppn level va).toNat % 4096 = va.toNat % 4096 := by
  have low (m : Nat) (h : 12 ≤ m) : (va.extractLsb' 0 m).toNat % 2 ^ 12 = va.toNat % 2 ^ 12 := by
    obtain ⟨d, rfl⟩ := Nat.exists_eq_add_of_le h
    simp only [BitVec.extractLsb'_toNat, Nat.shiftRight_zero]
    rw [Nat.pow_add, Nat.mod_mul_right_mod]
  unfold pageAddress
  split
  · exact (append_mod (k := 12) ppn (va.extractLsb' 0 12) (by decide)).trans (low 12 (by decide))
  split
  · exact (append_mod (k := 12) (ppn.extractLsb' 6 18) (va.extractLsb' 0 18) (by decide)).trans (low 18 (by decide))
  split
  · exact (append_mod (k := 12) (ppn.extractLsb' 12 12) (va.extractLsb' 0 24) (by decide)).trans (low 24 (by decide))
  · exact append_mod (k := 12) (ppn.extractLsb' 20 4) va (by decide)

/-- A walk that ends at an entry read it from an aligned word of the physical memory. -/
theorem walkFrom_entry {s : State} {va : Word} {v8e : Bool} {fuel : Nat} {level : BitVec 2} {table : Nat} {ke : Bool}
    {addr : Nat} {pte : Word} {l : BitVec 2} {k : Bool} (h : walkFrom s va v8e fuel level table ke = .entry addr pte l k) :
    s.cfg.physExists (addr + 3) = true ∧ pte = s.wordAt addr := by
  induction fuel generalizing level table ke with
  | zero => simp [walkFrom] at h
  | succ fuel ih =>
    simp only [walkFrom] at h
    split at h
    · cases h
    split at h
    · cases h
    rename_i hp
    split at h
    · cases h
    split at h
    · split at h
      · cases h
      · exact ih h
    split at h
    · injection h with h1 h2
      subst h1
      exact ⟨by simpa using hp, h2.symm⟩
    · cases h

theorem physExists_lt {c : Config} (hp : c.paBits ≤ 36) {a : Nat} (h : c.physExists a = true) : a < 2 ^ 36 := by
  have hb : c.physBits ≤ 36 := by
    unfold Config.physBits
    split <;> omega
  have : a < 2 ^ c.physBits := by simpa [Config.physExists] using h
  exact lt_of_lt_of_le this (Nat.pow_le_pow_right (by decide) hb)

/-- Setting R and M in a page table entry that a walk found keeps the canonical form. -/
theorem touchPte_wf {s : State} (h : Memory.wf s.mem = true) (hp : s.cfg.paBits ≤ 36) {addr : Nat}
    (ha : s.cfg.physExists (addr + 3) = true) (w : Bool) : Memory.wf (s.touchPte addr w).mem = true :=
  writeWord_wf h _ (physExists_lt hp ha)

theorem OnlyTranslation.cfg {s t : State} (h : OnlyTranslation s t) : t.cfg = s.cfg := by rw [h]

/-- What a successful translation can have done: TLB, page table entries and the counter of free values alone; the offset in
the page is kept, and so is the canonical form of memory. -/
theorem translate_ok {s : State} {va : Word} {asi : Asi} {kind : AccessKind} {pa : PhysAddr} {t : State}
    (h : translate s va asi kind = .ok pa t) :
    OnlyTranslation s t ∧ pa.toNat % 4096 = va.toNat % 4096
      ∧ (Memory.wf s.mem = true → s.cfg.paBits ≤ 36 → Memory.wf t.mem = true) := by
  have plain : (va.zeroExtend 36).toNat % 4096 = va.toNat % 4096 := by
    have := va.isLt
    simp
  have mmu : translateMmu s va asi kind = .ok pa t → OnlyTranslation s t ∧ pa.toNat % 4096 = va.toNat % 4096
      ∧ (Memory.wf s.mem = true → s.cfg.paBits ≤ 36 → Memory.wf t.mem = true) := by
    intro h
    unfold translateMmu mmuFault mmuMiss at h
    split at h
    · split at h
      · split at h
        · cases h
        · cases h
        · rename_i addr pte level ke hw
          obtain ⟨rfl, rfl, -⟩ := usePage_ok h
          have he := enterTlb_only s (entryOf s va pte level ke)
          refine ⟨(he.trans (touchPte_only _ addr kind.writes)).trans (setTlb_only _ _), pageAddress_offset .., ?_⟩
          intro hm hp
          have hm' : (s.enterTlb (entryOf s va pte level ke)).mem = s.mem := by unfold State.enterTlb; split <;> rfl
          exact touchPte_wf (s := s.enterTlb _) (hm' ▸ hm) (he.cfg ▸ hp) (he.cfg ▸ (walkFrom_entry hw).1) _
      · split at h <;> cases h
    · rename_i k _
      split at h
      · rename_i e _
        obtain ⟨rfl, rfl, -⟩ := usePage_ok h
        refine ⟨(touchHit_only s va e kind.writes).trans (setTlb_only _ _), pageAddress_offset .., ?_⟩
        intro hm hp
        show Memory.wf (s.touchHit va e kind.writes).mem = true
        unfold State.touchHit
        split
        · split
          · rename_i hw
            exact touchPte_wf hm hp (walkFrom_entry hw).1 _
          · exact hm
          · exact hm
        · exact hm
      · split at h <;> cases h
    · cases h
  unfold translate at h
  split at h
  · injection h with h1 h2
    subst h1 h2
    exact ⟨.refl s, plain, fun hm _ => hm⟩
  · injection h with h1 h2
    subst h1 h2
    refine ⟨.refl s, ?_, fun hm _ => hm⟩
    have := va.isLt
    simp
  all_goals
    split at h
    · exact mmu h
    · injection h with h1 h2
      subst h1 h2
      exact ⟨.refl s, plain, fun hm _ => hm⟩

/-- What a translation that traps can have done: the fault registers, the TLB and the counter of free values
(spec/20_memory.md R147, R151, R152). -/
theorem translate_trap {s : State} {va : Word} {asi : Asi} {kind : AccessKind} {tt : TrapType} {t : State}
    (h : translate s va asi kind = .trap tt t) :
    t = { s with fsr := t.fsr, far := t.far, tlb := t.tlb, freeCount := t.freeCount } := by
  have hf : ∀ {u : State} {ft : BitVec 3} {level : BitVec 2},
      u = { s with tlb := u.tlb, freeCount := u.freeCount } → mmuFault u va asi kind ft level = (.trap tt t : Access PhysAddr) →
      t = { s with fsr := t.fsr, far := t.far, tlb := t.tlb, freeCount := t.freeCount } := by
    intro u ft level hu e
    injection e with _ e
    rw [← e, State.recordFault, hu]
  have hm : mmuMiss s va kind = (.trap tt t : Access PhysAddr) →
      t = { s with fsr := t.fsr, far := t.far, tlb := t.tlb, freeCount := t.freeCount } := by
    intro e
    unfold mmuMiss at e
    split at e <;> (injection e with _ e; rw [← e])
  have hp : ∀ {u : State} {w0 : Word} {level : BitVec 2} {update : State → State},
      u = { s with tlb := u.tlb, freeCount := u.freeCount } → usePage u va asi kind w0 level update = .trap tt t →
      t = { s with fsr := t.fsr, far := t.far, tlb := t.tlb, freeCount := t.freeCount } := by
    intro u w0 level update hu e
    unfold usePage at e
    split at e
    · cases e
    · split at e <;> exact hf hu e
  unfold translate at h
  split at h
  · cases h
  · cases h
  all_goals
    split at h
    · unfold translateMmu at h
      split at h
      · split at h
        · split at h
          · cases h
          · exact hf rfl h
          · refine hp ?_ h
            unfold State.enterTlb
            split <;> rfl
        · exact hm h
      · split at h
        · exact hp rfl h
        · exact hm h
      · cases h
    · cases h

/-- What a successful access to memory can have done before the bytes are read or written. -/
theorem locate_ok {s : State} {va : Word} {asi : Asi} {kind : AccessKind} {pa : Nat} {t : State}
    (h : locate s va asi kind = .ok pa t) :
    OnlyTranslation s t ∧ pa % 4096 = va.toNat % 4096 ∧ pa < 2 ^ 36 ∧ s.cfg.physExists pa = true
      ∧ (Memory.wf s.mem = true → s.cfg.paBits ≤ 36 → Memory.wf t.mem = true) := by
  obtain ⟨p, u, h1, h2⟩ := Access.bind_eq_ok h
  split at h2
  · rename_i he
    injection h2 with e1 e2
    subst e1 e2
    obtain ⟨a, b, c⟩ := translate_ok h1
    exact ⟨a, b, p.isLt, a.cfg ▸ he, c⟩
  · cases h2

/-- With no translation in force an access reaches the address itself, and nothing changes (spec/20_memory.md R130, R155). -/
theorem locate_off {s : State} (h : TranslationOff s) (va : Word) (asi : Asi) (kind : AccessKind) :
    locate s va asi kind = if s.cfg.physExists va.toNat then .ok va.toNat s else .fault .noPhysicalMemory := by
  have e : (va.zeroExtend 36).toNat = va.toNat := by
    have := va.isLt
    simp; omega
  have ht : translate s va asi kind = .ok (va.zeroExtend 36) s := by
    unfold translate
    rcases h with h | ⟨h | h, h'⟩ <;> simp [*]
  rw [locate, ht, Access.bind_ok, e]

/-- What a data access that reaches memory can have done before the bytes are read or written. -/
theorem Reaches.spec {s : State} {asi : Asi} {ea : Word} {kind : AccessKind} {pa : Nat} {t : State}
    (h : Reaches s asi ea kind pa t) :
    OnlyTranslation s t ∧ pa % 4096 = ea.toNat % 4096 ∧ pa < 2 ^ 36
      ∧ (Memory.wf s.mem = true → s.cfg.paBits ≤ 36 → Memory.wf t.mem = true) := by
  have place : ∀ {u : State} {p : Nat}, memoryPlace u p = .ok (.memory pa) t → u = t ∧ p = pa := by
    intro u p hp
    unfold memoryPlace at hp
    split at hp
    · cases hp
    · injection hp with e1 e2
      injection e1 with e1
      exact ⟨e2, e1⟩
  unfold Reaches resolve at h
  split at h
  · obtain ⟨p, u, h1, h2⟩ := Access.bind_eq_ok h
    obtain ⟨rfl, rfl⟩ := place h2
    obtain ⟨a, b, c, -, d⟩ := locate_ok h1
    exact ⟨a, b, c, d⟩
  · split at h
    · dsimp only at h
      split at h
      · obtain ⟨rfl, rfl⟩ := place h
        refine ⟨.refl s, ?_, BitVec.isLt _, fun hm _ => hm⟩
        exact append_mod (k := 12) (asi.extractLsb' 0 4) ea (by decide)
      · cases h
    · split at h <;> cases h

/-! ## The TLB and the marks of stored words -/

/-- All that entering a descriptor can do (spec/20_memory.md R147): nothing if every descriptor is locked, else it takes the
place of an unlocked one. -/
theorem State.enterTlb_spec (s : State) (e : TlbEntry) :
    ((∀ x ∈ s.tlb, x.lb = true) ∧ s.enterTlb e = s)
    ∨ ∃ k x, s.tlb[k]? = some x ∧ x.lb = false
      ∧ s.enterTlb e = { s with tlb := s.tlb.set k e, freeCount := s.freeCount + 1 } := by
  have mem : ∀ k, k ∈ s.unlocked ↔ ∃ x, s.tlb[k]? = some x ∧ x.lb = false := by
    intro k
    rw [State.unlocked, List.mem_filter, List.mem_range]
    cases hk : s.tlb[k]? with
    | none => simp
    | some x => simp [(List.getElem?_eq_some_iff.1 hk).1]
  unfold State.enterTlb
  cases h : s.unlocked with
  | nil =>
    refine .inl ⟨fun x hx => ?_, rfl⟩
    obtain ⟨k, hk⟩ := List.getElem?_of_mem hx
    by_contra hb
    have := (mem k).2 ⟨x, hk, by simpa using hb⟩
    simp [h] at this
  | cons a l =>
    have hm : (a :: l).getD (s.drawFree.1.toNat % (a :: l).length) a ∈ s.unlocked := by
      rw [h, List.getD_eq_getElem _ _ (Nat.mod_lt _ (by simp))]
      exact List.getElem_mem _
    obtain ⟨x, hx, hb⟩ := (mem _).1 hm
    exact .inr ⟨_, x, hx, hb, rfl⟩

/-- All that reading the tables for a probe can do: it changes nothing and never traps. -/
theorem probeTables_cases (s : State) (ea : Word) :
    (∃ w, probeTables s ea = .ok w s) ∨ probeTables s ea = .refused .misalignedTable := by
  unfold probeTables
  split
  · exact .inl ⟨_, rfl⟩
  · exact .inr rfl

/-- All that a probe can do (spec/20_memory.md R158; log 18): it changes nothing but, for a reserved type, the counter of free
values, and it never traps. -/
theorem readProbe_cases (s : State) (ea : Word) :
    (∃ w, readProbe s ea = .ok w s) ∨ readProbe s ea = .ok s.drawFree.1 s.drawFree.2
    ∨ ∃ r, readProbe s ea = .refused r := by
  have tables : (∃ w, probeTables s ea = .ok w s) ∨ probeTables s ea = .ok s.drawFree.1 s.drawFree.2
      ∨ ∃ r, probeTables s ea = .refused r :=
    (probeTables_cases s ea).imp_right fun h => .inr ⟨_, h⟩
  unfold readProbe
  split
  · exact .inr (.inl rfl)
  · split
    · exact tables
    · split
      · exact .inl ⟨_, rfl⟩
      · exact tables
    · exact .inr (.inr ⟨_, rfl⟩)

/-- What a probe finds in the one held entry of its address, if that answers it: the tables are not read. -/
theorem readProbe_held {s : State} {ea : Word} {k : Nat} {e : TlbEntry} {w : Word} (ht : ¬ 4#4 < flushType ea)
    (hk : s.tlbHits ea = [k]) (he : s.tlb[k]? = some e) (hw : e.probed (probeLevel (flushType ea)) = some w) :
    readProbe s ea = .ok w s := by
  simp [readProbe, ht, hk, he, hw]

/-- The V8 MMU's descriptors have neither KE nor G, before and after a reset event (spec/20_memory.md R158). -/
theorem dropV8e_bits {c : Config} (h : c.mmu ≠ .v8eref) (w : Word) :
    (c.dropV8e w).getLsbD 0 = false ∧ (c.dropV8e w).getLsbD 2 = false := by
  simp [Config.dropV8e, h]

/-- The marks left after a FLUSH of the doubleword at `pa`. -/
theorem mem_flushMarks (l : List Nat) (pa a : Nat) : a ∈ flushMarks l pa ↔ a ∈ l ∧ a / 8 ≠ pa / 8 := by
  simp [flushMarks]

/-- All that recording a FLUSH can do (spec/48_v8_base_system.md R491; log 24). -/
theorem State.flushWord_spec (s : State) (ea : Word) :
    (∃ pa, probe s ea = some pa ∧ s.flushWord ea = { s with stale := flushMarks s.stale pa })
    ∨ (probe s ea = none
      ∧ s.flushWord ea = { s with flushed := (s.stale.map fun a => (a, ea.toNat / 8)) ++ s.flushed }) := by
  unfold State.flushWord
  cases h : probe s ea with
  | some pa => exact .inl ⟨pa, rfl, rfl⟩
  | none => exact .inr ⟨rfl, rfl⟩

end Sys2Proof.Machine
end

