-- ==== Sys2Proof/Laws/Registers.lean ====
section
/-! SUPPORT. The register windows: reading after writing, and which stored registers a write touches. -/

namespace Sys2Proof.Machine

@[simp] theorem State.regIn_zero (s : State) (w : Nat) : s.regIn w 0#5 = 0#32 := by simp [State.regIn]

@[simp] theorem State.reg_zero (s : State) : s.reg 0#5 = 0#32 := s.regIn_zero s.window

@[simp] theorem State.setRegIn_zero (s : State) (w : Nat) (x : Word) : s.setRegIn w 0#5 x = s := by
  simp [State.setRegIn]

@[simp] theorem State.setRegIn_window (s : State) (w : Nat) (r : RegNum) (x : Word) : (s.setRegIn w r x).window = s.window := by
  simp [State.window]

@[simp] theorem State.setReg_window (s : State) (r : RegNum) (x : Word) : (s.setReg r x).window = s.window := by
  simp [State.window]

@[simp] theorem State.advance_window (s : State) : s.advance.window = s.window := rfl

/-- A write changes the stored registers and nothing else. -/
theorem State.setRegIn_eq (s : State) (w : Nat) (r : RegNum) (x : Word) :
    s.setRegIn w r x = { s with globals := (s.setRegIn w r x).globals, windows := (s.setRegIn w r x).windows } := by
  unfold State.setRegIn; split <;> (try split) <;> rfl

/-- What a register reads as depends on the stored registers and the configuration alone. -/
theorem State.regIn_congr {s t : State} (hg : t.globals = s.globals) (hw : t.windows = s.windows) (hc : t.cfg = s.cfg)
    (w : Nat) (r : RegNum) : t.regIn w r = s.regIn w r := by
  simp only [State.regIn, hg, hw, hc]

/-- Reading the register that was written, in the same window. -/
theorem State.regIn_setRegIn_same (s : State) (w : Nat) (r : RegNum) (x : Word) :
    (s.setRegIn w r x).regIn w r = shown r x := by
  unfold State.setRegIn State.regIn shown
  by_cases h0 : r = 0#5
  · simp [h0]
  · by_cases h8 : r.toNat < 8 <;> simp [h0, h8]

/-- Two register numbers of one window name different stored registers. -/
theorem windowIndex_ne (c : Config) (w : Nat) {r q : RegNum} (hr : 8 ≤ r.toNat) (hq : 8 ≤ q.toNat) (h : r ≠ q)
    (hn : 2 ≤ c.nwindows ∧ c.nwindows ≤ 32) : windowIndex c w r ≠ windowIndex c w q := by
  have hne : r.toNat ≠ q.toNat := fun e => h (BitVec.eq_of_toNat_eq e)
  have h1 := r.isLt
  have h2 := q.isLt
  intro he
  have he' := congrArg Fin.val he
  simp only [windowIndex] at he'
  obtain ⟨n2, n32⟩ := hn
  generalize hm : 16 * c.nwindows = m at *
  have b1 : (16 * w + (r.toNat - 8)) % m < m := Nat.mod_lt _ (by omega)
  have b2 : (16 * w + (q.toNat - 8)) % m < m := Nat.mod_lt _ (by omega)
  rw [Nat.mod_eq_of_lt (by omega : (16 * w + (r.toNat - 8)) % m < 512),
    Nat.mod_eq_of_lt (by omega : (16 * w + (q.toNat - 8)) % m < 512)] at he'
  have e : (16 * w + (r.toNat - 8)) ≡ (16 * w + (q.toNat - 8)) [MOD m] := he'
  have e2 : (r.toNat - 8) ≡ (q.toNat - 8) [MOD m] := Nat.ModEq.add_left_cancel' _ e
  have e3 : (r.toNat - 8) = (q.toNat - 8) := Nat.ModEq.eq_of_lt_of_lt e2 (by omega) (by omega)
  omega

/-- Reading another register of the window that was written to. -/
theorem State.regIn_setRegIn_of_ne (s : State) (w : Nat) {r q : RegNum} (x : Word) (h : r ≠ q)
    (hn : 2 ≤ s.cfg.nwindows ∧ s.cfg.nwindows ≤ 32) : (s.setRegIn w r x).regIn w q = s.regIn w q := by
  unfold State.setRegIn State.regIn
  by_cases h0 : r = 0#5
  · simp [h0]
  by_cases hq : q = 0#5
  · simp [hq]
  by_cases h8 : r.toNat < 8 <;> by_cases q8 : q.toNat < 8 <;> simp only [h0, h8, hq, q8, dite_true, dite_false, if_false]
  · have : r.toNat ≠ q.toNat := fun e => h (BitVec.eq_of_toNat_eq e)
    simp [this]
  · have := windowIndex_ne s.cfg w (by omega) (by omega) h hn
    have h' : (windowIndex s.cfg w r).val ≠ (windowIndex s.cfg w q).val := fun e => this (Fin.ext e)
    simp [h']

/-- A write of r[r] of window `w` touches that stored register alone. -/
theorem State.setRegIn_only (s : State) (w : Nat) (r : RegNum) (x : Word) : OnlyRegisters s (s.setRegIn w r x) w [r] := by
  unfold State.setRegIn OnlyRegisters
  by_cases h0 : r = 0#5
  · simp [h0]
  by_cases h8 : r.toNat < 8
  · simp only [h0, h8, dite_true, if_false]
    refine ⟨fun i hi => ?_, fun i _ => trivial⟩
    have : i.val ≠ r.toNat := hi r (by simp) h0
    simp [Ne.symm this]
  · simp only [h0, h8, dite_false, if_false]
    refine ⟨fun i _ => trivial, fun i hi => ?_⟩
    have := hi r (by simp) (by omega)
    have h' : (windowIndex s.cfg w r).val ≠ i.val := fun e => this (Fin.ext e.symm)
    simp [h']

/-- Frames of stored registers compose. -/
theorem OnlyRegisters.trans {s t u : State} {w : Nat} {rs qs : List RegNum} (h1 : OnlyRegisters s t w rs)
    (h2 : OnlyRegisters t u w qs) (hc : t.cfg = s.cfg) : OnlyRegisters s u w (rs ++ qs) := by
  refine ⟨fun i hi => ?_, fun i hi => ?_⟩
  · rw [h2.1 i fun r hr => hi r (List.mem_append_right _ hr), h1.1 i fun r hr => hi r (List.mem_append_left _ hr)]
  · rw [h2.2 i fun r hr => hc ▸ hi r (List.mem_append_right _ hr), h1.2 i fun r hr => hi r (List.mem_append_left _ hr)]

/-- States with the same stored registers and configuration have the same frames. -/
theorem OnlyRegisters.congr {s s' t t' : State} {w : Nat} {rs : List RegNum} (h : OnlyRegisters s t w rs)
    (g1 : s'.globals = s.globals) (w1 : s'.windows = s.windows) (c1 : s'.cfg = s.cfg)
    (g2 : t'.globals = t.globals) (w2 : t'.windows = t.windows) : OnlyRegisters s' t' w rs := by
  unfold OnlyRegisters at *
  rw [g1, w1, c1, g2, w2]; exact h

/-- What every instruction with one destination register does, once its base state is known: the template of
spec/45_v8_base_alu.md R340. -/
theorem completes_of_write {i : Instr} {s base : State} {rd : RegNum} {v : Word}
    (h : exec i s = .next (base.setReg rd v).advance) (hg : base.globals = s.globals) (hw : base.windows = s.windows)
    (hc : base.cfg = s.cfg) (hwin : base.window = s.window) : Completes i s base rd v := by
  refine ⟨_, h, ?_, ?_, ?_⟩
  · have hwin' : ((base.setReg rd v).advance).window = base.window := by simp [State.window]
    rw [State.reg, hwin']
    exact (State.regIn_congr rfl rfl rfl _ _).trans (base.regIn_setRegIn_same base.window rd v)
  · rw [← hwin]
    exact (base.setRegIn_only base.window rd v).congr hg.symm hw.symm hc.symm rfl rfl
  · unfold MovedOn State.advance State.setReg
    rw [base.setRegIn_eq]

/-- Writing a register and writing the condition codes commute. -/
theorem State.setReg_setIcc (s : State) (r : RegNum) (x : Word) (f : Icc) :
    (s.setReg r x).setIcc f = (s.setIcc f).setReg r x := by
  unfold State.setReg State.setRegIn
  have hw : (s.setIcc f).window = s.window := rfl
  rw [hw]
  split
  · rfl
  · split <;> rfl

/-- The template of spec/45_v8_base_alu.md R340 with condition codes. -/
theorem completes_of_writeCc {i : Instr} {s base : State} {rd : RegNum} {v : Word} {f : Icc}
    (h : exec i s = writeResultCc s rd v f) (hb : base = s.setIcc f) : Completes i s base rd v := by
  subst hb
  exact completes_of_write (by rw [h, writeResultCc, State.setReg_setIcc]) rfl rfl rfl rfl

end Sys2Proof.Machine
end

