-- ==== Sys2Proof/Laws/Trap.lean ====
section
/-! SUPPORT. Taking a trap: everything it can do, once. -/

namespace Sys2Proof.Machine

/-- The place of a windowed register keeps the register number modulo 16. -/
theorem windowIndex_mod16 (c : Config) (w : Nat) (r : RegNum) : (windowIndex c w r).val % 16 = (r.toNat - 8) % 16 := by
  simp only [windowIndex]
  have h1 : ∀ x, x % 512 % 16 = x % 16 := fun x => Nat.mod_mod_of_dvd x ⟨32, rfl⟩
  have h2 : ∀ x, x % (16 * c.nwindows) % 16 = x % 16 := fun x => Nat.mod_mod_of_dvd x ⟨c.nwindows, rfl⟩
  rw [h1, h2]; omega

/-- The two locals that a trap writes are different stored registers. -/
theorem State.regIn_setRegIn_local (s : State) (w : Nat) (x : Word) :
    (s.setRegIn w 18#5 x).regIn w 17#5 = s.regIn w 17#5 := by
  have hne : (windowIndex s.cfg w 18#5).val ≠ (windowIndex s.cfg w 17#5).val := by
    intro h
    have h1 := windowIndex_mod16 s.cfg w 18#5
    have h2 := windowIndex_mod16 s.cfg w 17#5
    rw [h] at h1
    simp at h1 h2
    omega
  unfold State.setRegIn State.regIn
  simp [hne]

/-- The window after the status registers of a trap entry are written is the new CWP's (spec/43_awp_wrpsr.md R291). -/
theorem State.enterTrapStatus_window (s : State) (tt : TrapType) :
    (s.enterTrapStatus tt).window = s.prevWindow.toNat := by
  unfold State.window State.enterTrapStatus
  by_cases h : s.cfg.awp <;> simp [h]

theorem State.trapVector_toNat (s : State) (tt : TrapType) : (s.trapVector tt).toNat = handlerAddress s tt := by
  unfold State.trapVector handlerAddress
  have h1 := s.tba.isLt
  have h2 := tt.isLt
  split
  · rw [BitVec.toNat_append, ← Nat.shiftLeft_add_eq_or_of_lt (BitVec.isLt _), Nat.shiftLeft_eq]; simp
  · rw [BitVec.toNat_append, ← Nat.shiftLeft_add_eq_or_of_lt (BitVec.isLt _), BitVec.toNat_append,
      ← Nat.shiftLeft_add_eq_or_of_lt (BitVec.isLt _), Nat.shiftLeft_eq, Nat.shiftLeft_eq]
    simp; omega

/-- The stored registers of a trap entry. -/
theorem State.enterTrap_registers (s : State) (tt : TrapType) :
    ((s.enterTrapStatus tt).setReg 17#5 s.pc).setReg 18#5 s.npc
      = ((s.enterTrapStatus tt).setRegIn s.prevWindow.toNat 17#5 s.pc).setRegIn s.prevWindow.toNat 18#5 s.npc := by
  rw [State.setReg, State.setReg_window, State.setReg, s.enterTrapStatus_window tt]

/-- Trap entry (spec/60_exceptions.md R510). -/
theorem State.enterTrap_taken (s : State) (tt : TrapType) : TrapTaken s (s.enterTrap tt) tt := by
  have hcwp : (s.enterTrap tt).cwp = s.prevWindow := by simp [State.enterTrap]
  have h17 : (s.enterTrap tt).regIn s.prevWindow.toNat 17#5 = s.pc := by
    refine (State.regIn_congr (by rw [State.enterTrap, s.enterTrap_registers])
      (by rw [State.enterTrap, s.enterTrap_registers]) (by simp [State.enterTrap]) _ _).trans
      ((State.regIn_setRegIn_local _ s.prevWindow.toNat s.npc).trans ?_)
    exact State.regIn_setRegIn_same (s.enterTrapStatus tt) s.prevWindow.toNat 17#5 s.pc
  have h18 : (s.enterTrap tt).regIn s.prevWindow.toNat 18#5 = s.npc := by
    refine (State.regIn_congr (by rw [State.enterTrap, s.enterTrap_registers])
      (by rw [State.enterTrap, s.enterTrap_registers]) (by simp [State.enterTrap]) _ _).trans ?_
    exact State.regIn_setRegIn_same ((s.enterTrapStatus tt).setRegIn s.prevWindow.toNat 17#5 s.pc) s.prevWindow.toNat 18#5 s.npc
  have honly : OnlyRegisters s (s.enterTrap tt) s.prevWindow.toNat [17#5, 18#5] := by
    have a := (s.enterTrapStatus tt).setRegIn_only s.prevWindow.toNat 17#5 s.pc
    have b := ((s.enterTrapStatus tt).setRegIn s.prevWindow.toNat 17#5 s.pc).setRegIn_only s.prevWindow.toNat 18#5 s.npc
    refine (a.trans b (by simp)).congr rfl rfl rfl ?_ ?_ <;> rw [State.enterTrap, s.enterTrap_registers]
  refine ⟨?_, rfl, ?_, ?_, ?_, ?_, ?_, ?_, ?_, hcwp ▸ h17, hcwp ▸ h18, hcwp ▸ honly, ?_⟩
  · simp only [State.enterTrap]; exact s.trapVector_toNat tt
  · simp [State.enterTrap]
  · simp [State.enterTrap]
  · simp [State.enterTrap]
  · rw [hcwp]; simp [State.prevWindow]
  · simp [State.enterTrap]
  · simp [State.enterTrap]
  · simp [State.enterTrap]
  · unfold State.enterTrap State.setReg
    rw [State.setRegIn_eq, State.setRegIn_eq]
    rfl

/-- An instruction that answers with a trap (spec/60_exceptions.md R505, R510). -/
theorem traps_of_exec {i : Instr} {s : State} {tt : TrapType} (h : exec i s = takeTrap s tt) : Traps i s tt := by
  constructor
  · intro he
    exact ⟨_, by rw [h, takeTrap, State.raise, if_pos he], s.enterTrap_taken tt⟩
  · intro he
    rw [h, takeTrap, State.raise, if_neg (by simp [he])]

/-- What a synchronous trap can do: with traps enabled the trap entry, with traps disabled error mode. -/
theorem State.raise_spec (s : State) (tt : TrapType) :
    (s.et = true ∧ s.raise tt = s.enterTrap tt ∧ TrapTaken s (s.raise tt) tt)
    ∨ (s.et = false ∧ s.raise tt = { s with tt := tt, errorMode := true, condDelay := false }) := by
  by_cases h : s.et = true
  · left
    have e : s.raise tt = s.enterTrap tt := by rw [State.raise, if_pos h]
    exact ⟨h, e, e ▸ s.enterTrap_taken tt⟩
  · right
    exact ⟨by simpa using h, by rw [State.raise, if_neg h]⟩

end Sys2Proof.Machine
end

