-- ==== Sys2Proof/Laws/Invariant.lean ====
section
/-! SUPPORT. What keeps the invariant: every update of the state, every access, every shared sequence of instructions and
every event, once each. -/

namespace Sys2Proof.Machine

/-! ## Updates that keep the invariant -/
theorem aligned_add4 {x : Word} (h : x.toNat % 4 = 0) : (x + 4#32).toNat % 4 = 0 := by
  rw [BitVec.toNat_add]; simp; omega

/-- The next instruction in sequence. -/
theorem Inv.advance {s : State} (h : Inv s) : Inv s.advance := by
  obtain ⟨h1, h2, h3, h4, h5, h6, h7, h8, h9, h10, h11⟩ := h
  exact ⟨h1, h2, h3, h4, h5, h6, h7, h8, h10, aligned_add4 h10, h11⟩

theorem Inv.transfer {s : State} (h : Inv s) {t : Word} (ht : t.toNat % 4 = 0) : Inv (s.transfer t) := by
  obtain ⟨h1, h2, h3, h4, h5, h6, h7, h8, h9, h10, h11⟩ := h
  exact ⟨h1, h2, h3, h4, h5, h6, h7, h8, h10, ht, h11⟩

theorem Inv.skip {s : State} (h : Inv s) : Inv s.skip := by
  obtain ⟨h1, h2, h3, h4, h5, h6, h7, h8, h9, h10, h11⟩ := h
  refine ⟨h1, h2, h3, h4, h5, h6, h7, h8, aligned_add4 h10, ?_, h11⟩
  simp only [State.skip]; rw [BitVec.toNat_add]; simp; omega

theorem Inv.jump {s : State} (h : Inv s) {t : Word} (ht : t.toNat % 4 = 0) : Inv (s.jump t) := by
  obtain ⟨h1, h2, h3, h4, h5, h6, h7, h8, h9, h10, h11⟩ := h
  exact ⟨h1, h2, h3, h4, h5, h6, h7, h8, ht, aligned_add4 ht, h11⟩

theorem Inv.setRegIn {s : State} (h : Inv s) (w : Nat) (r : RegNum) (x : Word) : Inv (s.setRegIn w r x) := by
  unfold State.setRegIn
  split
  · exact h
  · split <;> exact h

theorem Inv.setReg {s : State} (h : Inv s) (r : RegNum) (x : Word) : Inv (s.setReg r x) := h.setRegIn _ r x

theorem Inv.windows {s : State} (h : Inv s) : 2 ≤ s.cfg.nwindows ∧ s.cfg.nwindows ≤ 32 := by
  have := h.1
  simp only [Config.wf, Config.coreWf, Bool.and_eq_true, decide_eq_true_eq] at this
  omega

theorem Inv.paBits {s : State} (h : Inv s) : s.cfg.paBits ≤ 36 := by
  have := h.1
  simp only [Config.wf, Config.deviceWf, Bool.and_eq_true, decide_eq_true_eq] at this
  omega

theorem Inv.setCwp {s : State} (h : Inv s) {w : BitVec 5} (hw : w.toNat < s.cfg.nwindows) : Inv { s with cwp := w } := by
  obtain ⟨h1, h2, h3, h4, h5, h6, h7, h8, h9, h10, h11, h12⟩ := h
  exact ⟨h1, h2, h3, h4, h5, h6, h7, h8, h9, h10, hw, h12⟩

theorem Inv.prevWindow_lt {s : State} (h : Inv s) : s.prevWindow.toNat < s.cfg.nwindows := by
  obtain ⟨h2, h32⟩ := h.windows
  have : (s.cwp.toNat + s.cfg.nwindows - 1) % s.cfg.nwindows < s.cfg.nwindows := Nat.mod_lt _ (by omega)
  simp [State.prevWindow]; omega

theorem Inv.nextWindow_lt {s : State} (h : Inv s) : s.nextWindow.toNat < s.cfg.nwindows := by
  obtain ⟨h2, h32⟩ := h.windows
  have : (s.cwp.toNat + 1) % s.cfg.nwindows < s.cfg.nwindows := Nat.mod_lt _ (by omega)
  simp [State.nextWindow]; omega

/-- A handler's address is a multiple of 4. -/
theorem trapVector_aligned (s : State) (tt : TrapType) : (s.trapVector tt).toNat % 4 = 0 := by
  rw [s.trapVector_toNat, handlerAddress]; split <;> omega

/-- Trap entry. -/
theorem Inv.enterTrap {s : State} (h : Inv s) (tt : TrapType) : Inv (s.enterTrap tt) := by
  have h1 : Inv (s.enterTrapStatus tt) := by
    have hp := h.prevWindow_lt
    obtain ⟨h1, h2, h3, h4, h5, h6, h7, h8, h9, h10, h11, h12, h13, h14, h15⟩ := h
    exact ⟨h1, h2, h3, h4, h5, h6, h7, h8, h9, h10, hp, h12, h13, h14, fun _ => rfl⟩
  have h2 := ((h1.setReg 17#5 s.pc).setReg 18#5 s.npc)
  obtain ⟨h1, h2, h3, h4, h5, h6, h7, h8, h9, h10, h11⟩ := h2
  exact ⟨h1, h2, h3, h4, h5, h6, h7, h8, trapVector_aligned s tt, aligned_add4 (trapVector_aligned s tt), h11⟩

/-- A synchronous trap, taken or in error mode. -/
theorem Inv.raise {s : State} (h : Inv s) (tt : TrapType) : Inv (s.raise tt) := by
  unfold State.raise
  split
  · exact h.enterTrap tt
  · rename_i hn
    obtain ⟨h1, h2, h3, h4, h5, h6, h7, h8, h9, h10, h11, h12, h13, h14, h15⟩ := h
    exact ⟨h1, h2, h3, h4, h5, h6, h7, h8, h9, h10, h11, h12, h13, h14, fun _ => by simpa using hn⟩

/-- What a step that keeps the invariant answers. -/
def Keeps (s : State) (o : Host.Outcome State Fault Refusal) : Prop := ∀ t, o = .next t → Inv t ∧ t.cfg = s.cfg

theorem keeps_next {s t : State} (h : Inv t) (hc : t.cfg = s.cfg) : Keeps s (.next t) := by
  intro u hu; injection hu with hu; subst hu; exact ⟨h, hc⟩

theorem keeps_refused {s : State} {r : Refusal} : Keeps s (.refused r) := by intro u hu; cases hu

theorem keeps_fault {s : State} {r : Fault} : Keeps s (.fault r) := by intro u hu; cases hu

theorem raise_cfg (s : State) (tt : TrapType) : (s.raise tt).cfg = s.cfg := by
  unfold State.raise; split <;> simp [State.enterTrap]

theorem keeps_trap {s t : State} {tt : TrapType} (h : Inv t) (hc : t.cfg = s.cfg) : Keeps s (takeTrap t tt) :=
  keeps_next (h.raise tt) (by rw [raise_cfg, hc])

theorem keeps_result {s t : State} {rd : RegNum} {x : Word} (h : Inv t) (hc : t.cfg = s.cfg) : Keeps s
    (writeResult t rd x) :=
  keeps_next (h.setReg rd x).advance (by simpa using hc)

theorem keeps_resultCc {s t : State} {rd : RegNum} {x : Word} {f : Icc} (h : Inv t) (hc : t.cfg = s.cfg) : Keeps s
    (writeResultCc t rd x f) :=
  keeps_next (Inv.advance (show Inv ((t.setReg rd x).setIcc f) from h.setReg rd x)) (by simpa using hc)

theorem keeps_ite {s : State} {p : Prop} [Decidable p] {a b : Host.Outcome State Fault Refusal} (ha : p → Keeps s a)
    (hb : ¬p → Keeps s b) :
    Keeps s (if p then a else b) := by split <;> simp_all

theorem keeps_privileged {s : State} {k : Host.Outcome State Fault Refusal} (h : Inv s) (hk : Keeps s k) :
    Keeps s (privileged s k) := keeps_ite (fun _ => hk) (fun _ => keeps_trap h rfl)

/-- A register has no bit above its width. -/
theorem lowMask_high {n k : Nat} (h : n ≤ k) (x : Word) : (x &&& lowMask n).getLsbD k = false := by
  rw [BitVec.getLsbD_and, lowMask, BitVec.getLsbD_ofNat, Nat.testBit_two_pow_sub_one]
  simp; omega

/-! ## Accesses that keep the invariant -/
/-- An access that, where it succeeds or traps, leaves a state that meets the invariant, of the same implementation. -/
def AccessKeeps {α : Type} (s : State) (x : Access α) : Prop :=
  (∀ a t, x = .ok a t → Inv t ∧ t.cfg = s.cfg) ∧ (∀ tt t, x = .trap tt t → Inv t ∧ t.cfg = s.cfg)

theorem accessKeeps_ok {α : Type} {s t : State} {a : α} (h : Inv t) (hc : t.cfg = s.cfg) : AccessKeeps s (.ok a t) :=
  ⟨fun _ _ e => by injection e with e1 e2; subst e2; exact ⟨h, hc⟩, fun _ _ e => by cases e⟩

theorem accessKeeps_trap {α : Type} {s t : State} {tt : TrapType} (h : Inv t) (hc : t.cfg = s.cfg) :
    AccessKeeps s (.trap tt t : Access α) :=
  ⟨fun _ _ e => (by cases e), fun _ _ e => by injection e with e1 e2; subst e2; exact ⟨h, hc⟩⟩

theorem accessKeeps_fault {α : Type} {s : State} {r : Fault} : AccessKeeps s (.fault r : Access α) :=
  ⟨fun _ _ e => (by cases e), fun _ _ e => (by cases e)⟩

theorem accessKeeps_refused {α : Type} {s : State} {r : Refusal} : AccessKeeps s (.refused r : Access α) :=
  ⟨fun _ _ e => (by cases e), fun _ _ e => (by cases e)⟩

theorem accessKeeps_bind {α β : Type} {s : State} {x : Access α} {k : α → State → Access β} (h : AccessKeeps s x)
    (hk : ∀ a t, x = .ok a t → Inv t → t.cfg = s.cfg → AccessKeeps s (k a t)) : AccessKeeps s (x.bind k) := by
  cases x with
  | ok a t => exact hk a t rfl (h.1 a t rfl).1 (h.1 a t rfl).2
  | trap tt t => exact accessKeeps_trap (h.2 tt t rfl).1 (h.2 tt t rfl).2
  | fault r => exact accessKeeps_fault
  | refused r => exact accessKeeps_refused

theorem keeps_outcome {α : Type} {s : State} {x : Access α} {k : α → State → State} (h : AccessKeeps s x)
    (hk : ∀ a t, Inv t → t.cfg = s.cfg → Inv (k a t) ∧ (k a t).cfg = s.cfg) : Keeps s (x.outcome k) := by
  cases x with
  | ok a t => exact keeps_next (hk a t (h.1 a t rfl).1 (h.1 a t rfl).2).1 (hk a t (h.1 a t rfl).1 (h.1 a t rfl).2).2
  | trap tt t => exact keeps_trap (h.2 tt t rfl).1 (h.2 tt t rfl).2
  | fault r => exact keeps_fault
  | refused r => exact keeps_refused

theorem Inv.setTlb {s : State} (h : Inv s) {l : List TlbEntry} (hl : l.length = s.tlb.length) : Inv { s with tlb := l } :=
    by
  obtain ⟨h1, h2, h3⟩ := h
  exact ⟨h1, hl.trans h2, h3⟩

theorem Inv.setMem {s : State} (h : Inv s) {m : List Host.Cell} (hm : Memory.wf m = true) : Inv { s with mem := m } := by
  obtain ⟨h1, h2, h3, h4, h5, h6, h7, h8, h9⟩ := h
  exact ⟨h1, h2, h3, h4, h5, h6, h7, hm, h9⟩

theorem Inv.enterTlb {s : State} (h : Inv s) (e : TlbEntry) : Inv (s.enterTlb e) ∧ (s.enterTlb e).cfg = s.cfg := by
  unfold State.enterTlb
  split
  · exact ⟨h, rfl⟩
  · refine ⟨?_, rfl⟩
    exact Inv.setTlb (s := s.drawFree.2) h (by simp [State.drawFree])

theorem Inv.touchPte {s : State} (h : Inv s) {addr : Nat} (w : Bool) (ha : s.cfg.physExists (addr + 3) = true) :
    Inv (s.touchPte addr w) := h.setMem (touchPte_wf h.2.2.2.2.2.2.2.1 h.paBits ha w)

theorem walk_entry {s : State} {va : Word} {v8e : Bool} {addr : Nat} {pte : Word} {level : BitVec 2} {ke : Bool}
    (h : walk s va v8e = .entry addr pte level ke) : s.cfg.physExists (addr + 3) = true := (walkFrom_entry h).1

/-- A fault of the MMU. -/
theorem keeps_mmuFault {α : Type} {s t : State} (h : Inv t) (hc : t.cfg = s.cfg) (va : Word) (asi : Asi)
    (kind : AccessKind) (ft : BitVec 3)
    (level : BitVec 2) : AccessKeeps s (mmuFault t va asi kind ft level : Access α) := accessKeeps_trap h hc

theorem keeps_usePage {s t : State} (h : Inv t) (hc : t.cfg = s.cfg) {va : Word} {asi : Asi} {kind : AccessKind} {w0 : Word}
    {level : BitVec 2} {update : State → State} (hu : Inv (update t) ∧ (update t).cfg = s.cfg) :
    AccessKeeps s (usePage t va asi kind w0 level update) := by
  unfold usePage
  split
  · exact accessKeeps_ok hu.1 hu.2
  · split <;> exact keeps_mmuFault h hc _ _ _ _ _

/-- Every translation. -/
theorem keeps_translate {s : State} (h : Inv s) (va : Word) (asi : Asi) (kind : AccessKind) :
    AccessKeeps s (Machine.translate s va asi kind) := by
  unfold Machine.translate
  split
  · exact accessKeeps_ok h rfl
  · exact accessKeeps_ok h rfl
  all_goals
    split
    · unfold translateMmu
      split
      · split
        · split
          · exact accessKeeps_refused
          · exact keeps_mmuFault h rfl _ _ _ _ _
          · rename_i hw
            have he := h.enterTlb (entryOf s va ‹_› ‹_› ‹_›)
            refine keeps_usePage he.1 he.2 ⟨?_, he.2⟩
            refine (he.1.touchPte kind.writes ?_).setTlb (by simp [State.touchPte])
            rw [he.2]; exact walk_entry hw
        · unfold mmuMiss; split <;> exact accessKeeps_trap h rfl
      · split
        · refine keeps_usePage h rfl ?_
          have : Inv (s.touchHit va ‹_› kind.writes) ∧ (s.touchHit va ‹_› kind.writes).cfg = s.cfg ∧
            (s.touchHit va ‹_› kind.writes).tlb = s.tlb := by
            unfold State.touchHit
            split
            · split
              · rename_i hw; exact ⟨h.touchPte _ (walk_entry hw), rfl, rfl⟩
              · exact ⟨h, rfl, rfl⟩
              · exact ⟨h, rfl, rfl⟩
            · exact ⟨h, rfl, rfl⟩
          exact ⟨this.1.setTlb (by simp [this.2.2]), this.2.1⟩
        · unfold mmuMiss; split <;> exact accessKeeps_trap h rfl
      · exact accessKeeps_refused
    · exact accessKeeps_ok h rfl

theorem keeps_locate {s : State} (h : Inv s) (va : Word) (asi : Asi) (kind : AccessKind) :
    AccessKeeps s (locate s va asi kind) :=
  accessKeeps_bind (keeps_translate h va asi kind) fun a t _ ht hc => by
    split
    · exact accessKeeps_ok ht hc
    · exact accessKeeps_fault

theorem keeps_memoryPlace {s t : State} (h : Inv t) (hc : t.cfg = s.cfg) (pa : Nat) : AccessKeeps s (memoryPlace t pa) := by
  unfold memoryPlace
  split
  · exact accessKeeps_trap h hc
  · exact accessKeeps_ok h hc

/-- Every data access, up to where it goes. -/
theorem keeps_resolve {s : State} (h : Inv s) (asi : Asi) (ea : Word) (kind : AccessKind) : AccessKeeps s
    (resolve s asi ea kind) := by
  unfold resolve
  split
  · exact accessKeeps_bind (keeps_locate h ea asi kind) fun a t _ ht hc => keeps_memoryPlace ht hc a
  · split
    · dsimp only; split
      · exact keeps_memoryPlace h rfl _
      · exact accessKeeps_fault
    · split
      · exact accessKeeps_ok h rfl
      · exact accessKeeps_refused

theorem keeps_asMemory {s : State} {x : Access Place} (h : AccessKeeps s x) : AccessKeeps s (asMemory x) :=
  accessKeeps_bind h fun p t _ ht hc => by
    cases p
    · exact accessKeeps_ok ht hc
    · exact accessKeeps_refused

theorem Inv.setHandlers {s : State} (h : Inv s) {l : List Handler} (hl : l.length = s.handlers.length) : Inv
    { s with handlers := l } := by
  obtain ⟨h1, h2, h3, h4⟩ := h
  exact ⟨h1, h2, hl.trans h3, h4⟩

theorem Inv.setIircs {s : State} (h : Inv s) {l : List Iirc} (hl : l.length = s.iircs.length) : Inv
    { s with iircs := l } := by
  obtain ⟨h1, h2, h3, h4, h5⟩ := h
  exact ⟨h1, h2, h3, hl.trans h4, h5⟩

theorem Inv.setPpgs {s : State} (h : Inv s) {l : List Ppg} (hl : l.length = s.ppgs.length) : Inv { s with ppgs := l } := by
  obtain ⟨h1, h2, h3, h4, h5, h6⟩ := h
  exact ⟨h1, h2, h3, h4, hl.trans h5, h6⟩

theorem Inv.setCounters {s : State} (h : Inv s) {l : List SimpleCounter} (hl : l.length = s.counters.length) : Inv
    { s with counters := l } := by
  obtain ⟨h1, h2, h3, h4, h5, h6, h7⟩ := h
  exact ⟨h1, h2, h3, h4, h5, hl.trans h6, h7⟩

theorem Inv.setTimers {s : State} (h : Inv s) {l : List Timer} (hl : l.length = s.timers.length) : Inv
    { s with timers := l } := by
  obtain ⟨h1, h2, h3, h4, h5, h6, h7, h8⟩ := h
  exact ⟨h1, h2, h3, h4, h5, h6, hl.trans h7, h8⟩

theorem Inv.setCtx {s : State} (h : Inv s) (x : Word) : Inv
    { s with ctx := (x &&& lowMask s.cfg.ctxBits).extractLsb' 0 7 } := by
  obtain ⟨h1, h2, h3, h4, h5, h6, h7, h8, h9, h10, h11, h12, h13, h14, h15⟩ := h
  refine ⟨h1, h2, h3, h4, h5, h6, h7, h8, h9, h10, h11, h12, h13, ?_, h15⟩
  show ((x &&& lowMask s.cfg.ctxBits).extractLsb' 0 7).toNat < 2 ^ s.cfg.ctxBits
  have hb : s.cfg.ctxBits ≤ 7 := by
    simp only [Config.wf, Config.deviceWf, Bool.and_eq_true, decide_eq_true_eq] at h1; omega
  rw [BitVec.extractLsb'_toNat, BitVec.toNat_and, lowMask, BitVec.toNat_ofNat]
  have : 2 ^ s.cfg.ctxBits ≤ 2 ^ 7 := Nat.pow_le_pow_right (by decide) hb
  have hp : 0 < 2 ^ s.cfg.ctxBits := Nat.two_pow_pos _
  rw [Nat.mod_eq_of_lt (a := 2 ^ s.cfg.ctxBits - 1) (by omega), Nat.and_two_pow_sub_one_eq_mod]
  simp
  exact lt_of_le_of_lt (Nat.mod_le _ _) (Nat.mod_lt _ hp)

theorem Inv.setWim {s : State} (h : Inv s) (x : Word) : Inv { s with wim := x &&& lowMask s.cfg.nwindows } := by
  obtain ⟨h1, h2, h3, h4, h5, h6, h7, h8, h9, h10, h11, h12, h13⟩ := h
  exact ⟨h1, h2, h3, h4, h5, h6, h7, h8, h9, h10, h11, fun k hk => lowMask_high hk x, h13⟩

theorem Inv.setAccHi {s : State} (h : Inv s) (x : Word) : Inv { s with accHi := x &&& lowMask s.cfg.accHiWidth } := by
  obtain ⟨h1, h2, h3, h4, h5, h6, h7, h8, h9, h10, h11, h12, h13, h14⟩ := h
  exact ⟨h1, h2, h3, h4, h5, h6, h7, h8, h9, h10, h11, h12, fun k hk => lowMask_high hk x, h14⟩

theorem keeps_loadOrFree {s : State} (h : Inv s) (o : Option Word) : AccessKeeps s (loadOrFree s o) := by
  cases o
  · exact accessKeeps_ok (show Inv s.drawFree.2 from h) rfl
  · exact accessKeeps_ok h rfl

/-- A load of a register of the MMU or of a peripheral. -/
theorem keeps_readRegister {s : State} (h : Inv s) (r : Register) : AccessKeeps s (readRegister s r) := by
  unfold readRegister
  split
  · unfold readMmuRegister
    dsimp only
    repeat' split
    all_goals first | exact accessKeeps_ok h rfl | exact accessKeeps_refused
  · rename_i ea
    obtain ⟨w, hp⟩ | hp | ⟨r, hp⟩ := readProbe_cases s ea
    · rw [hp]; exact accessKeeps_ok h rfl
    · rw [hp]; exact accessKeeps_ok (show Inv s.drawFree.2 from h) rfl
    · rw [hp]; exact accessKeeps_refused
  · unfold readDescriptor
    split
    · exact accessKeeps_refused
    · exact accessKeeps_ok h rfl
  · split
    · exact accessKeeps_ok h rfl
    · exact accessKeeps_refused
  · exact accessKeeps_ok h rfl
  · split
    · exact keeps_loadOrFree h _
    · exact accessKeeps_refused
  · split
    · exact keeps_loadOrFree h _
    · exact accessKeeps_refused
  · split
    · exact keeps_loadOrFree h _
    · exact accessKeeps_refused
  · exact accessKeeps_ok h rfl
  · unfold loadTimer
    split
    · unfold Access.ofExcept
      split
      · exact accessKeeps_ok (h.setTimers (by simp)) rfl
      · exact accessKeeps_refused
    · exact accessKeeps_refused

/-- A store to a register of the MMU or of a peripheral. -/
theorem keeps_writeRegister {s : State} (h : Inv s) (r : Register) (x : Word) : AccessKeeps s (writeRegister s r x) := by
  unfold writeRegister
  split
  · unfold writeMmuRegister
    dsimp only
    split
    · exact accessKeeps_ok h rfl
    split
    · exact accessKeeps_ok h rfl
    split
    · exact accessKeeps_ok (h.setCtx x) rfl
    split
    · exact accessKeeps_ok h rfl
    · exact accessKeeps_refused
  · exact accessKeeps_ok (h.setTlb (by simp)) rfl
  · unfold writeDescriptor
    split
    · exact accessKeeps_refused
    · exact accessKeeps_ok (h.setTlb (by simp)) rfl
  · split
    · exact accessKeeps_ok (h.setHandlers (by simp)) rfl
    · exact accessKeeps_refused
  · exact accessKeeps_ok h rfl
  · split
    · exact accessKeeps_ok (h.setIircs (by simp)) rfl
    · exact accessKeeps_refused
  · split
    · unfold Access.ofExcept
      split
      · exact accessKeeps_ok (h.setPpgs (by simp)) rfl
      · exact accessKeeps_refused
    · exact accessKeeps_refused
  · split
    · exact accessKeeps_ok (h.setCounters (by simp)) rfl
    · exact accessKeeps_refused
  · exact accessKeeps_ok h rfl
  · unfold storeTimer
    split
    · unfold Access.ofExcept
      split
      · exact accessKeeps_ok (h.setTimers (by simp)) rfl
      · exact accessKeeps_refused
    · exact accessKeeps_refused

theorem AccessKeeps.of_eq {α : Type} {s t : State} {x : Access α} (h : AccessKeeps t x) (hc : t.cfg = s.cfg) :
    AccessKeeps s x :=
  ⟨fun a u e => ⟨(h.1 a u e).1, (h.1 a u e).2.trans hc⟩, fun a u e => ⟨(h.2 a u e).1, (h.2 a u e).2.trans hc⟩⟩

theorem Inv.storeByte {s : State} (h : Inv s) {a : Nat} (ha : a < 2 ^ 36) (x : Byte) : Inv (s.storeByte a x) :=
  h.setMem (writeByte_wf h.2.2.2.2.2.2.2.1 x ha)

theorem Inv.storeHalf {s : State} (h : Inv s) {a : Nat} (ha : a + 1 < 2 ^ 36) (x : BitVec 16) : Inv (s.storeHalf a x) :=
  h.setMem (writeByte_wf (writeByte_wf h.2.2.2.2.2.2.2.1 _ (by omega)) _ ha)

theorem Inv.storeWord {s : State} (h : Inv s) {a : Nat} (ha : a + 3 < 2 ^ 36) (x : Word) : Inv (s.storeWord a x) :=
  h.setMem (writeWord_wf h.2.2.2.2.2.2.2.1 _ ha)

/-- The reads of each width. -/
theorem keeps_loads {s : State} (h : Inv s) (asi : Asi) (ea : Word) :
    AccessKeeps s (loadByte s asi ea) ∧ AccessKeeps s (loadHalf s asi ea) ∧ AccessKeeps s (loadWord s asi ea)
    ∧ AccessKeeps s (loadDouble s asi ea) := by
  have hr := keeps_resolve h asi ea .load
  refine ⟨?_, ?_, ?_, ?_⟩
  · exact accessKeeps_bind (keeps_asMemory hr) fun a t _ ht hc => accessKeeps_ok ht hc
  · exact accessKeeps_bind (keeps_asMemory hr) fun a t _ ht hc => accessKeeps_ok ht hc
  · refine accessKeeps_bind hr fun p t _ ht hc => ?_
    cases p
    · exact accessKeeps_ok ht hc
    · exact (keeps_readRegister ht _).of_eq hc
  · refine accessKeeps_bind hr fun p t _ ht hc => ?_
    split
    · exact accessKeeps_ok ht hc
    · refine accessKeeps_bind ((keeps_readRegister ht _).of_eq hc) fun a u _ hu hc' => ?_
      refine accessKeeps_bind ((keeps_readRegister hu _).of_eq hc') fun a v _ hv hc'' => accessKeeps_ok hv hc''
    · exact accessKeeps_refused

theorem asMemory_ok {x : Access Place} {pa : Nat} {t : State} (h : asMemory x = .ok pa t) : x = .ok (.memory pa) t := by
  obtain ⟨p, u, h1, h2⟩ := Access.bind_eq_ok h
  cases p
  · injection h2 with e1 e2; subst e1 e2; exact h1
  · cases h2

/-- The writes of each width, aligned. -/
theorem keeps_puts {s : State} (h : Inv s) (asi : Asi) (ea : Word) :
    (∀ x, AccessKeeps s (putByte s asi ea x))
    ∧ (ea.toNat % 2 = 0 → ∀ x, AccessKeeps s (putHalf s asi ea x))
    ∧ (ea.toNat % 4 = 0 → ∀ x, AccessKeeps s (putWord s asi ea x))
    ∧ (ea.toNat % 8 = 0 → ∀ x y, AccessKeeps s (putDouble s asi ea x y))
    ∧ AccessKeeps s (testAndSet s asi ea)
    ∧ (ea.toNat % 4 = 0 → ∀ x, AccessKeeps s (exchange s asi ea x)) := by
  have hr := fun kind => keeps_resolve h asi ea kind
  refine ⟨?_, ?_, ?_, ?_, ?_, ?_⟩
  · intro x
    refine accessKeeps_bind (keeps_asMemory (hr .store)) fun a t e ht hc => ?_
    obtain ⟨-, -, hb, -⟩ := Reaches.spec (show Reaches s asi ea .store a t from asMemory_ok e)
    exact accessKeeps_ok (ht.storeByte hb _) hc
  · intro hal x
    refine accessKeeps_bind (keeps_asMemory (hr .store)) fun a t e ht hc => ?_
    obtain ⟨-, hm, hb, -⟩ := Reaches.spec (show Reaches s asi ea .store a t from asMemory_ok e)
    exact accessKeeps_ok (ht.storeHalf (by omega) _) hc
  · intro hal x
    refine accessKeeps_bind (hr .store) fun p t e ht hc => ?_
    cases p with
    | memory a =>
      obtain ⟨-, hm, hb, -⟩ := Reaches.spec (show Reaches s asi ea .store a t from e)
      exact accessKeeps_ok (ht.storeWord (by omega) _) hc
    | register r => exact (keeps_writeRegister ht r x).of_eq hc
  · intro hal x y
    refine accessKeeps_bind (hr .store) fun p t e ht hc => ?_
    split
    · rename_i a
      obtain ⟨-, hm, hb, -⟩ := Reaches.spec (show Reaches s asi ea .store a t from e)
      exact accessKeeps_ok ((ht.storeWord (by omega) _).storeWord (by omega) _) hc
    · exact accessKeeps_bind ((keeps_writeRegister ht _ _).of_eq hc) fun a u _ hu hc' =>
      (keeps_writeRegister hu _ _).of_eq hc'
    · exact accessKeeps_refused
  · refine accessKeeps_bind (keeps_asMemory (hr .atomic)) fun a t e ht hc => ?_
    obtain ⟨-, -, hb, -⟩ := Reaches.spec (show Reaches s asi ea .atomic a t from asMemory_ok e)
    exact accessKeeps_ok (ht.storeByte hb _) hc
  · intro hal x
    refine accessKeeps_bind (keeps_asMemory (hr .atomic)) fun a t e ht hc => ?_
    obtain ⟨-, hm, hb, -⟩ := Reaches.spec (show Reaches s asi ea .atomic a t from asMemory_ok e)
    exact accessKeeps_ok (ht.storeWord (by omega) _) hc

theorem branchTarget_aligned {pc : Word} (h : pc.toNat % 4 = 0) (d : BitVec 22) : (branchTarget pc d).toNat % 4 = 0 := by
  have e : ∀ x : Word, x.toNat % 4 = (x.extractLsb' 0 2).toNat := by intro x; simp
  have h0 : pc.extractLsb' 0 2 = 0#2 := by apply BitVec.eq_of_toNat_eq; rw [← e]; simpa using h
  unfold branchTarget
  rw [BitVec.toNat_add]
  have h2 : ((d ++ 0#2).signExtend 32).toNat % 4 = 0 := by
    rw [e]
    have : ((d ++ 0#2).signExtend 32).extractLsb' 0 2 = 0#2 := by
      ext i hi
      have : i = 0 ∨ i = 1 := by omega
      have key : ∀ j : Nat, j < 2 → (d ++ 0#2).getLsbD j = false := by
        intro j hj; rw [BitVec.getLsbD_append]; simp [hj]
      simp only [BitVec.getElem_extractLsb', BitVec.getElem_zero]
      rw [BitVec.getLsbD_signExtend]
      have := key i hi
      simp only [Nat.zero_add]
      rw [this]; simp; omega
    rw [this]; rfl
  omega

theorem callTarget_aligned {pc : Word} (h : pc.toNat % 4 = 0) (d : BitVec 30) : (callTarget pc d).toNat % 4 = 0 := by
  unfold callTarget
  rw [BitVec.toNat_add, BitVec.toNat_append]
  simp [Nat.shiftLeft_eq]; omega

theorem Inv.pc_aligned {s : State} (h : Inv s) : s.pc.toNat % 4 = 0 := h.2.2.2.2.2.2.2.2.1

theorem keeps_controlTransfer {s : State} {k : Host.Outcome State Fault Refusal} (h : Keeps s k) : Keeps s
    (controlTransfer s k) :=
  keeps_ite (fun _ => keeps_refused) (fun _ => h)

theorem keeps_conditionalBranch {s : State} (h : Inv s) (taken a : Bool) (d : BitVec 22) : Keeps s
    (conditionalBranch taken a d s) := by
  refine keeps_controlTransfer (keeps_ite (fun _ => ?_) fun _ => keeps_ite (fun _ => ?_) fun _ => ?_)
  · exact keeps_next (Inv.transfer h (branchTarget_aligned h.pc_aligned d)) rfl
  · exact keeps_next h.skip rfl
  · exact keeps_next h.advance rfl

theorem keeps_trapOn {s : State} (h : Inv s) (taken : Bool) (rs1 : RegNum) (op : TrapOperand) : Keeps s
    (trapOn taken rs1 op s) :=
  keeps_ite (fun _ => keeps_trap h rfl) (fun _ => keeps_next h.advance rfl)

theorem keeps_shiftWindow {s : State} (h : Inv s) {w : BitVec 5} (hw : w.toNat < s.cfg.nwindows) (tt : TrapType)
    (rd rs1 : RegNum)
    (op : Operand2) : Keeps s (shiftWindow w tt rd rs1 op s) :=
  keeps_ite (fun _ => keeps_refused) fun _ => keeps_ite (fun _ => keeps_trap h rfl) fun _ =>
    keeps_next ((h.setCwp hw).setReg rd _).advance (by simp)

theorem keeps_whenAligned {s : State} (h : Inv s) {ea : Word} {n : Nat} {k : Host.Outcome State Fault Refusal}
    (hk : ea.toNat % n = 0 → Keeps s k) : Keeps s (whenAligned s ea n k) := keeps_ite hk fun _ => keeps_trap h rfl

theorem keeps_whenEven {s : State} (h : Inv s) {rd : RegNum} {k : Host.Outcome State Fault Refusal}
    (hk : Keeps s k) : Keeps s (whenEven s rd k) := keeps_ite (fun _ => keeps_trap h rfl) fun _ => hk

theorem keeps_whenAsiAllowed {s : State} (h : Inv s) {asi : Asi} {k : Host.Outcome State Fault Refusal}
    (hk : Keeps s k) : Keeps s (whenAsiAllowed s asi k) := keeps_ite (fun _ => keeps_trap h rfl) fun _ => hk

/-- The shared sequences of the loads. -/
theorem keeps_loadSequences {s : State} (h : Inv s) (rd : RegNum) (asi : Asi) (ea : Word) :
    Keeps s (loadSignedByte s rd asi ea) ∧ Keeps s (loadUnsignedByte s rd asi ea) ∧ Keeps s (loadSignedHalf s rd asi ea)
    ∧ Keeps s (loadUnsignedHalf s rd asi ea) ∧ Keeps s (loadToRegister s rd asi ea) ∧ Keeps s (loadToPair s rd asi ea) := by
  obtain ⟨h1, h2, h3, h4⟩ := keeps_loads h asi ea
  have w : ∀ (t : State) (x : Word), Inv t → t.cfg = s.cfg → Inv (t.setReg rd x).advance ∧
    (t.setReg rd x).advance.cfg = s.cfg :=
    fun t x ht hc => ⟨(ht.setReg rd x).advance, by simpa using hc⟩
  refine ⟨?_, ?_, ?_, ?_, ?_, ?_⟩
  · exact keeps_outcome h1 fun a t ht hc => w t _ ht hc
  · exact keeps_outcome h1 fun a t ht hc => w t _ ht hc
  · exact keeps_whenAligned h fun _ => keeps_outcome h2 fun a t ht hc => w t _ ht hc
  · exact keeps_whenAligned h fun _ => keeps_outcome h2 fun a t ht hc => w t _ ht hc
  · exact keeps_whenAligned h fun _ => keeps_outcome h3 fun a t ht hc => w t _ ht hc
  · exact keeps_whenEven h (keeps_whenAligned h fun _ => keeps_outcome h4 fun a t ht hc =>
      ⟨((ht.setReg rd _).setReg _ _).advance, by simpa using hc⟩)

/-- The shared sequences of the stores and of the atomic instructions. -/
theorem keeps_storeSequences {s : State} (h : Inv s) (rd : RegNum) (asi : Asi) (ea : Word) :
    Keeps s (storeLowByte s rd asi ea) ∧ Keeps s (storeLowHalf s rd asi ea) ∧ Keeps s (storeRegister s rd asi ea)
    ∧ Keeps s (storePair s rd asi ea) ∧ Keeps s (loadAndSet s rd asi ea) ∧ Keeps s (swapRegister s rd asi ea) := by
  obtain ⟨h1, h2, h3, h4, h5, h6⟩ := keeps_puts h asi ea
  have w : ∀ (t : State) (x : Word), Inv t → t.cfg = s.cfg → Inv (t.setReg rd x).advance ∧
    (t.setReg rd x).advance.cfg = s.cfg :=
    fun t x ht hc => ⟨(ht.setReg rd x).advance, by simpa using hc⟩
  refine ⟨?_, ?_, ?_, ?_, ?_, ?_⟩
  · exact keeps_outcome (h1 _) fun _ t ht hc => ⟨ht.advance, hc⟩
  · exact keeps_whenAligned h fun ha => keeps_outcome (h2 ha _) fun _ t ht hc => ⟨ht.advance, hc⟩
  · exact keeps_whenAligned h fun ha => keeps_outcome (h3 ha _) fun _ t ht hc => ⟨ht.advance, hc⟩
  · exact keeps_whenEven h (keeps_whenAligned h fun ha => keeps_outcome (h4 ha _ _) fun _ t ht hc => ⟨ht.advance, hc⟩)
  · exact keeps_outcome h5 fun a t ht hc => w t _ ht hc
  · exact keeps_whenAligned h fun ha => keeps_outcome (h6 ha _) fun a t ht hc => w t _ ht hc

theorem keeps_divide {s : State} (h : Inv s) {p : Prop} [Decidable p] {tt : TrapType}
    {k : Host.Outcome State Fault Refusal} (hk : Keeps s k) :
    Keeps s (if p then takeTrap s tt else k) := keeps_ite (fun _ => keeps_trap h rfl) fun _ => hk

theorem Inv.setAccumulator {s : State} (h : Inv s) (b : Bool) (r : Nat) : Inv (s.setAccumulator b r) := h.setAccHi _

theorem Inv.setProduct {s : State} (h : Inv s) (p : BitVec 64) (b : Bool) : Inv (s.setProduct p b) := by
  have key : ∀ m : Bool, Inv { s with accHi := if m then (if b then lowMask s.cfg.accHiWidth else 0#32) else s.accHi } := by
    intro m
    cases m
    · exact h
    · cases b
      · simpa using h.setAccHi 0#32
      · have := h.setAccHi (BitVec.allOnes 32)
        rwa [BitVec.allOnes_and] at this
  exact key s.cfg.mac

theorem misaligned_false {x : Word} (h : misalignedTarget x = false) : x.toNat % 4 = 0 := by
  unfold misalignedTarget at h
  have e : (x.extractLsb' 0 2).toNat = x.toNat % 4 := by simp
  rw [← e]
  have h' : x.extractLsb' 0 2 = 0#2 := by simpa using h
  rw [h']; rfl

theorem Inv.setPsr {s : State} (h : Inv s) (he : s.errorMode = false) {x : Word}
    (hx : (x.extractLsb' 0 5).toNat < s.cfg.nwindows) :
    Inv (s.setPsr x) := by
  obtain ⟨h1, h2, h3, h4, h5, h6, h7, h8, h9, h10, h11, h12, h13, h14, h15⟩ := h
  refine ⟨h1, h2, h3, h4, h5, h6, h7, h8, h9, h10, hx, h12, h13, h14, fun e => ?_⟩
  exact absurd (show s.errorMode = true from e) (by simp [he])

theorem keeps_tagged {s : State} (h : Inv s) (rd : RegNum) (x : Word) (f : Icc) : Keeps s (writeTaggedTrap s rd x f) :=
  keeps_ite (fun _ => keeps_trap h rfl) fun _ => keeps_resultCc h rfl

theorem keeps_mac {s : State} (h : Inv s) (b : Bool) (rd rs1 : RegNum) (op : Operand2) :
    Keeps s (mac b rd rs1 op s) ∧ Keeps s (macCc b rd rs1 op s) := by
  unfold mac macCc
  exact ⟨keeps_result (h.setAccumulator _ _) rfl, keeps_resultCc (h.setAccumulator _ _) rfl⟩

/-- The reset trap. -/
theorem Inv.resetTrap {s : State} (h : Inv s) : Inv s.resetTrap := by
  have h1 : Inv s.resetProcessor := by
    obtain ⟨h1, h2, h3, h4, h5, h6, h7, h8, h9, h10, h11, h12, h13, h14, h15⟩ := h
    unfold Inv State.resetProcessor
    dsimp only
    exact ⟨h1, h2, h3, h4, h5, h6, h7, h8, h9, h10, h11, fun k hk => lowMask_high hk _, fun k hk => lowMask_high hk _, h14,
      h15⟩
  have h2 : Inv s.resetProcessor.resetMmu := by
    generalize s.resetProcessor = u at h1
    have a := (h1.setCtx (u.unspecified 528)).setTlb (l := u.resetMmu.tlb) (by simp [State.resetMmu])
    unfold Inv State.resetMmu at *
    dsimp only at *
    exact a
  have h3 : Inv s.resetProcessor.resetMmu.resetPeripherals := by
    generalize s.resetProcessor.resetMmu = u at h2
    have a :=
      ((((h2.setHandlers (l := u.resetPeripherals.handlers) (by simp [State.resetPeripherals])).setIircs (l :=
        u.resetPeripherals.iircs) (by simp [State.resetPeripherals])).setPpgs (l := u.resetPeripherals.ppgs) (by simp
          [State.resetPeripherals])).setCounters (l := u.resetPeripherals.counters) (by simp
            [State.resetPeripherals])).setTimers (l := u.resetPeripherals.timers) (by simp [State.resetPeripherals])
    unfold Inv State.resetPeripherals at *
    dsimp only at *
    exact a
  have h4 : Inv s.resetProcessor.resetMmu.resetPeripherals.resetStatus := by
    generalize s.resetProcessor.resetMmu.resetPeripherals = u at h3
    have hp := h3.prevWindow_lt
    obtain ⟨h1, h2, h3, h4, h5, h6, h7, h8, h9, h10, h11, h12, h13, h14, h15⟩ := h3
    exact ⟨h1, h2, h3, h4, h5, h6, h7, h8, h9, h10, hp, h12, h13, h14, fun _ => rfl⟩
  have h5 := (h4.setReg 17#5 s.pc).setReg 18#5 s.npc
  obtain ⟨h1, h2, h3, h4, h5, h6, h7, h8, h9, h10, h11⟩ := h5
  unfold State.resetTrap
  dsimp only
  generalize ((s.resetProcessor.resetMmu.resetPeripherals.resetStatus.setReg 17#5 s.pc).setReg 18#5 s.npc) = u at *
  exact ⟨h1, h2, h3, h4, h5, h6, h7, canonicalMemory_wf _, (show (0#32 : Word).toNat % 4 = 0 from rfl),
    (show (4#32 : Word).toNat % 4 = 0 from rfl), h11⟩

theorem resetTrap_cfg (s : State) : s.resetTrap.cfg = s.cfg := by
  simp [State.resetTrap, State.resetStatus, State.resetPeripherals, State.resetMmu, State.resetProcessor]

theorem Inv.mapHandler {s : State} (h : Inv s) (slot : Nat) (f : Handler → Handler) : Inv (s.mapHandler slot f) := by
  unfold State.mapHandler
  split
  · exact h
  · exact h.setHandlers (by simp)

theorem mapHandler_cfg (s : State) (slot : Nat) (f : Handler → Handler) : (s.mapHandler slot f).cfg = s.cfg := by
  unfold State.mapHandler; split <;> rfl

theorem Inv.tickTimer {s : State} (h : Inv s) (n : Nat) (b : Bool) : Inv (s.tickTimer n b) ∧
    (s.tickTimer n b).cfg = s.cfg := by
  unfold State.tickTimer
  split
  · rename_i u _
    by_cases hb : (if b then u.hasExternalClock else u.hasTimerClock) = true
    · rw [if_pos hb]
      exact ⟨h.setTimers (List.length_modify ..), rfl⟩
    · rw [if_neg hb]
      exact ⟨h, rfl⟩
  · exact ⟨h, rfl⟩

/-- Every event of the other agents. -/
theorem keeps_applyEvent {s : State} (h : Inv s) (e : Event) : Keeps s (applyEvent s e) := by
  unfold applyEvent
  split
  · exact keeps_next h rfl
  · exact keeps_next h.resetTrap (resetTrap_cfg s)
  · exact keeps_next h rfl
  · exact keeps_next (h.mapHandler _ _) (mapHandler_cfg ..)
  · exact keeps_next (h.mapHandler _ _) (mapHandler_cfg ..)
  · exact keeps_next (h.setIircs (by simp)) rfl
  · exact keeps_next (h.setIircs (by simp)) rfl
  · exact keeps_next (h.setPpgs (by simp)) rfl
  · exact keeps_next (Inv.setPpgs (s := s.drawFree.2.drawFree.2) h (List.length_modify ..)) rfl
  · unfold State.tickCounter
    split
    · exact keeps_next (h.setCounters (by simp)) rfl
    · exact keeps_next h rfl
  · exact keeps_next (h.setTimers (by simp)) rfl
  · unfold State.sampleTimer
    split
    · split
      · exact keeps_next (h.setTimers (by simp)) rfl
      · exact keeps_refused
    · exact keeps_next h rfl
  · exact keeps_next (h.tickTimer _ _).1 (h.tickTimer _ _).2
  · unfold State.driveExternal
    split
    · rename_i n level _ t _
      dsimp only
      split
      · have a := Inv.tickTimer (h.setTimers (l := s.timers.set n { t with external := level }) (by simp)) n true
        exact keeps_next a.1 a.2
      · exact keeps_next (h.setTimers (by simp)) rfl
    · exact keeps_next h rfl
  · exact keeps_next h rfl

/-- The instruction fetch. -/
theorem keeps_fetch {s : State} (h : Inv s) : AccessKeeps s (fetch s) :=
  accessKeeps_bind (keeps_locate h _ _ _) fun a t _ ht hc => by
    split
    · exact accessKeeps_trap ht hc
    · split
      · exact accessKeeps_refused
      · exact accessKeeps_ok ht hc
end Sys2Proof.Machine
end

