-- ==== Sys2Proof/Laws/PerInstr.lean ====
section
/-! SUPPORT. The statement made of every constructor: the word the encoder writes lies in the instruction's row of
spec/opcode_table.json, that is, it equals the row's `match` under the row's `mask`. -/

namespace Sys2Proof.Laws

/-- Masking a concatenation masks its parts. -/
theorem append_and {n m : Nat} (x a : BitVec n) (y b : BitVec m) : (x ++ y) &&& (a ++ b) = (x &&& a) ++ (y &&& b) := by
  ext i hi
  simp only [BitVec.getElem_and, BitVec.getElem_append]
  split <;> simp

/-- Masking a format 3 word masks its fields. -/
theorem format3_masked (op a : BitVec 2) (rd b : RegNum) (op3 c : BitVec 6) (rs1 d : RegNum) (low e : BitVec 14) :
    format3 op rd op3 rs1 low &&& format3 a b c d e
      = format3 (op &&& a) (rd &&& b) (op3 &&& c) (rs1 &&& d) (low &&& e) := by
  refine (append_and (op ++ rd ++ op3 ++ rs1) (a ++ b ++ c ++ d) low e).trans ?_
  rw [append_and (op ++ rd ++ op3), append_and (op ++ rd), append_and op]
  rfl

/-- The mask that keeps `op` and `op3` of a format 3 word. -/
theorem format3_mask (op : BitVec 2) (rd : RegNum) (op3 : BitVec 6) (rs1 : RegNum) (low : BitVec 14) :
    format3 op rd op3 rs1 low &&& 0xC1F80000#32 = format3 op 0#5 op3 0#5 0#14 := by
  refine (format3_masked op 3#2 rd 0#5 op3 63#6 rs1 0#5 low 0#14).trans ?_
  simp only [BitVec.and_zero, show op &&& 3#2 = op from BitVec.and_allOnes, show op3 &&& 63#6 = op3 from BitVec.and_allOnes]

/-- The mask that also keeps `rs1`. -/
theorem format3_mask_rs1 (op : BitVec 2) (rd : RegNum) (op3 : BitVec 6) (rs1 : RegNum) (low : BitVec 14) :
    format3 op rd op3 rs1 low &&& 0xC1FFC000#32 = format3 op 0#5 op3 rs1 0#14 := by
  refine (format3_masked op 3#2 rd 0#5 op3 63#6 rs1 31#5 low 0#14).trans ?_
  simp only [BitVec.and_zero, show op &&& 3#2 = op from BitVec.and_allOnes, show op3 &&& 63#6 = op3 from BitVec.and_allOnes,
    show rs1 &&& 31#5 = rs1 from BitVec.and_allOnes]

/-- The mask that also keeps `rd`. -/
theorem format3_mask_rd (op : BitVec 2) (rd : RegNum) (op3 : BitVec 6) (rs1 : RegNum) (low : BitVec 14) :
    format3 op rd op3 rs1 low &&& 0xFFF80000#32 = format3 op rd op3 0#5 0#14 := by
  refine (format3_masked op 3#2 rd 31#5 op3 63#6 rs1 0#5 low 0#14).trans ?_
  simp only [BitVec.and_zero, show op &&& 3#2 = op from BitVec.and_allOnes, show op3 &&& 63#6 = op3 from BitVec.and_allOnes,
    show rd &&& 31#5 = rd from BitVec.and_allOnes]

/-- The mask of the alternate-space rows keeps `op`, `op3` and `i`. -/
theorem format3Asi_mask (rd : RegNum) (op3 : BitVec 6) (rs1 : RegNum) (asi : Asi) (rs2 : RegNum) :
    format3Asi rd op3 rs1 asi rs2 &&& 0xC1F82000#32 = format3 3#2 0#5 op3 0#5 0#14 := by
  refine (format3_masked 3#2 3#2 rd 0#5 op3 63#6 rs1 0#5 (0#1 ++ asi ++ rs2) (1#1 ++ 0#8 ++ 0#5)).trans ?_
  have low : (0#1 ++ asi ++ rs2) &&& (1#1 ++ 0#8 ++ 0#5) = 0#14 := by
    rw [append_and, append_and, BitVec.and_zero, BitVec.and_zero]; rfl
  simp only [BitVec.and_zero, show op3 &&& 63#6 = op3 from BitVec.and_allOnes, low]
  rfl

/-- Masking a branch word masks its fields. -/
theorem formatBranch_masked (a b : Bool) (cond c : BitVec 4) (op2 d : BitVec 3) (disp22 e : BitVec 22) :
    formatBranch a cond op2 disp22 &&& (3#2 ++ BitVec.ofBool b ++ c ++ d ++ e)
      = 0#2 ++ (BitVec.ofBool a &&& BitVec.ofBool b) ++ (cond &&& c) ++ (op2 &&& d) ++ (disp22 &&& e) := by
  refine (append_and (0#2 ++ BitVec.ofBool a ++ cond ++ op2) (3#2 ++ BitVec.ofBool b ++ c ++ d) disp22 e).trans ?_
  rw [append_and (0#2 ++ BitVec.ofBool a ++ cond), append_and (0#2 ++ BitVec.ofBool a), append_and 0#2]
  rfl

/-- The mask of the branch rows keeps `op`, `cond` and `op2`. -/
theorem formatBranch_mask (a : Bool) (cond : BitVec 4) (op2 : BitVec 3) (disp22 : BitVec 22) :
    formatBranch a cond op2 disp22 &&& 0xDFC00000#32 = formatBranch false cond op2 0#22 := by
  refine (formatBranch_masked a false cond 15#4 op2 7#3 disp22 0#22).trans ?_
  simp only [BitVec.and_zero, show cond &&& 15#4 = cond from BitVec.and_allOnes,
    show op2 &&& 7#3 = op2 from BitVec.and_allOnes, show BitVec.ofBool false = 0#1 from rfl]
  rfl

/-- The mask of FBfcc and CBccc keeps `op` and `op2`. -/
theorem formatBranch_mask_op2 (a : Bool) (cond : BitVec 4) (op2 : BitVec 3) (disp22 : BitVec 22) :
    formatBranch a cond op2 disp22 &&& 0xC1C00000#32 = formatBranch false 0#4 op2 0#22 := by
  refine (formatBranch_masked a false cond 0#4 op2 7#3 disp22 0#22).trans ?_
  simp only [BitVec.and_zero, show op2 &&& 7#3 = op2 from BitVec.and_allOnes, show BitVec.ofBool false = 0#1 from rfl]
  rfl

/-- The mask of the Ticc rows keeps `op`, `cond` and `op3`. -/
theorem formatTrap_mask (cond : BitVec 4) (rs1 : RegNum) (op : TrapOperand) :
    formatTrap cond rs1 op &&& 0xDFF80000#32 = format3 2#2 (0#1 ++ cond) 0x3A#6 0#5 0#14 := by
  refine (format3_masked 2#2 3#2 (0#1 ++ cond) 15#5 0x3A#6 63#6 rs1 0#5 op.bits 0#14).trans ?_
  have keep : (0#1 ++ cond) &&& 15#5 = 0#1 ++ cond :=
    (append_and 0#1 0#1 cond 15#4).trans (congrArg (0#1 ++ ·) (show cond &&& 15#4 = cond from BitVec.and_allOnes))
  simp only [BitVec.and_zero, keep]
  rfl

/-- The mask of UNIMP and SETHI keeps `op` and `op2`. -/
theorem format2_mask (rd : RegNum) (op2 : BitVec 3) (imm : BitVec 22) :
    0#2 ++ rd ++ op2 ++ imm &&& 0xC1C00000#32 = 0#2 ++ 0#5 ++ op2 ++ 0#22 := by
  refine (append_and (0#2 ++ rd ++ op2) (3#2 ++ 0#5 ++ 7#3) imm 0#22).trans ?_
  rw [append_and (0#2 ++ rd), append_and 0#2, BitVec.and_zero, BitVec.and_zero,
    show op2 &&& 7#3 = op2 from BitVec.and_allOnes]
  rfl

namespace Row

/-- The `mask` of an instruction's row. -/
def mask : Instr → Word
  | .call _ => 0xC0000000#32
  | .unimp _ _ | .sethi _ _ | .fbfcc _ _ _ | .cbccc _ _ _ => 0xC1C00000#32
  | .ba _ _ | .bn _ _ | .bne _ _ | .be _ _ | .bg _ _ | .ble _ _ | .bge _ _ | .bl _ _ | .bgu _ _ | .bleu _ _
  | .bcc _ _ | .bcs _ _ | .bpos _ _ | .bneg _ _ | .bvc _ _ | .bvs _ _ => 0xDFC00000#32
  | .add _ _ _ | .addcc _ _ _ | .addx _ _ _ | .addxcc _ _ _ | .sub _ _ _ | .subcc _ _ _ | .subx _ _ _
  | .subxcc _ _ _ | .and _ _ _ | .andcc _ _ _ | .andn _ _ _ | .andncc _ _ _ | .or _ _ _ | .orcc _ _ _
  | .orn _ _ _ | .orncc _ _ _ | .xor _ _ _ | .xorcc _ _ _ | .xnor _ _ _ | .xnorcc _ _ _ | .sll _ _ _
  | .srl _ _ _ | .sra _ _ _ | .taddcc _ _ _ | .tsubcc _ _ _ | .taddccTV _ _ _ | .tsubccTV _ _ _
  | .mulscc _ _ _ | .umul _ _ _ | .umulcc _ _ _ | .smul _ _ _ | .smulcc _ _ _ | .udiv _ _ _ | .udivcc _ _ _
  | .sdiv _ _ _ | .sdivcc _ _ _ | .save _ _ _ | .restore _ _ _ | .divscc _ _ _ | .scan _ _ _ | .umac _ _ _
  | .umaccc _ _ _ | .smac _ _ _ | .smaccc _ _ _ | .jmpl _ _ _ | .rett _ _ | .rdasr _ _ | .rdpsr _ | .rdwim _
  | .rdtbr _ | .wrasr _ _ _ | .wrpsr _ _ _ | .wrwim _ _ | .wrtbr _ _ | .flush _ _ | .fpop1 _ _ _ _
  | .fpop2 _ _ _ _ | .cpop1 _ _ _ _ | .cpop2 _ _ _ _ | .ldsb _ _ _ | .ldsh _ _ _ | .ldub _ _ _ | .lduh _ _ _
  | .ld _ _ _ | .ldd _ _ _ | .stb _ _ _ | .sth _ _ _ | .st _ _ _ | .std _ _ _ | .ldstub _ _ _ | .swap _ _ _
  | .ldf _ _ _ | .ldfsr _ _ _ | .lddf _ _ _ | .stf _ _ _ | .stfsr _ _ _ | .stdfq _ _ _ | .stdf _ _ _
  | .ldc _ _ _ | .ldcsr _ _ _ | .lddc _ _ _ | .stc _ _ _ | .stcsr _ _ _ | .stdcq _ _ _ | .stdc _ _ _ => 0xC1F80000#32
  | .ta _ _ | .tn _ _ | .tne _ _ | .te _ _ | .tg _ _ | .tle _ _ | .tge _ _ | .tl _ _ | .tgu _ _ | .tleu _ _
  | .tcc _ _ | .tcs _ _ | .tpos _ _ | .tneg _ _ | .tvc _ _ | .tvs _ _ => 0xDFF80000#32
  | .rdy _ => 0xC1FFC000#32
  | .stbar => 0xFFFFC000#32
  | .wry _ _ => 0xFFF80000#32
  | .ldsba _ _ _ _ | .ldsha _ _ _ _ | .lduba _ _ _ _ | .lduha _ _ _ _ | .lda _ _ _ _ | .ldda _ _ _ _
  | .stba _ _ _ _ | .stha _ _ _ _ | .sta _ _ _ _ | .stda _ _ _ _ | .ldstuba _ _ _ _ | .swapa _ _ _ _ => 0xC1F82000#32

/-- The `match` of an instruction's row; that of a MAC instruction is set by its op3 parameter (spec/30_encoding.md R211). -/
def matchWord (c : Config) : Instr → Word
  | .call _ => 0x40000000#32
  | .unimp _ _ => 0x00000000#32
  | .sethi _ _ => 0x01000000#32
  | .ba _ _ => 0x10800000#32
  | .bn _ _ => 0x00800000#32
  | .bne _ _ => 0x12800000#32
  | .be _ _ => 0x02800000#32
  | .bg _ _ => 0x14800000#32
  | .ble _ _ => 0x04800000#32
  | .bge _ _ => 0x16800000#32
  | .bl _ _ => 0x06800000#32
  | .bgu _ _ => 0x18800000#32
  | .bleu _ _ => 0x08800000#32
  | .bcc _ _ => 0x1A800000#32
  | .bcs _ _ => 0x0A800000#32
  | .bpos _ _ => 0x1C800000#32
  | .bneg _ _ => 0x0C800000#32
  | .bvc _ _ => 0x1E800000#32
  | .bvs _ _ => 0x0E800000#32
  | .fbfcc _ _ _ => 0x01800000#32
  | .cbccc _ _ _ => 0x01C00000#32
  | .add _ _ _ => 0x80000000#32
  | .addcc _ _ _ => 0x80800000#32
  | .addx _ _ _ => 0x80400000#32
  | .addxcc _ _ _ => 0x80C00000#32
  | .sub _ _ _ => 0x80200000#32
  | .subcc _ _ _ => 0x80A00000#32
  | .subx _ _ _ => 0x80600000#32
  | .subxcc _ _ _ => 0x80E00000#32
  | .and _ _ _ => 0x80080000#32
  | .andcc _ _ _ => 0x80880000#32
  | .andn _ _ _ => 0x80280000#32
  | .andncc _ _ _ => 0x80A80000#32
  | .or _ _ _ => 0x80100000#32
  | .orcc _ _ _ => 0x80900000#32
  | .orn _ _ _ => 0x80300000#32
  | .orncc _ _ _ => 0x80B00000#32
  | .xor _ _ _ => 0x80180000#32
  | .xorcc _ _ _ => 0x80980000#32
  | .xnor _ _ _ => 0x80380000#32
  | .xnorcc _ _ _ => 0x80B80000#32
  | .sll _ _ _ => 0x81280000#32
  | .srl _ _ _ => 0x81300000#32
  | .sra _ _ _ => 0x81380000#32
  | .taddcc _ _ _ => 0x81000000#32
  | .tsubcc _ _ _ => 0x81080000#32
  | .taddccTV _ _ _ => 0x81100000#32
  | .tsubccTV _ _ _ => 0x81180000#32
  | .mulscc _ _ _ => 0x81200000#32
  | .umul _ _ _ => 0x80500000#32
  | .umulcc _ _ _ => 0x80D00000#32
  | .smul _ _ _ => 0x80580000#32
  | .smulcc _ _ _ => 0x80D80000#32
  | .udiv _ _ _ => 0x80700000#32
  | .udivcc _ _ _ => 0x80F00000#32
  | .sdiv _ _ _ => 0x80780000#32
  | .sdivcc _ _ _ => 0x80F80000#32
  | .save _ _ _ => 0x81E00000#32
  | .restore _ _ _ => 0x81E80000#32
  | .divscc _ _ _ => 0x80E80000#32
  | .scan _ _ _ => 0x81600000#32
  | .umac _ _ _ => format3 2#2 0#5 c.umacOp3 0#5 0#14
  | .umaccc _ _ _ => format3 2#2 0#5 c.umacccOp3 0#5 0#14
  | .smac _ _ _ => format3 2#2 0#5 c.smacOp3 0#5 0#14
  | .smaccc _ _ _ => format3 2#2 0#5 c.smacccOp3 0#5 0#14
  | .jmpl _ _ _ => 0x81C00000#32
  | .rett _ _ => 0x81C80000#32
  | .ta _ _ => 0x91D00000#32
  | .tn _ _ => 0x81D00000#32
  | .tne _ _ => 0x93D00000#32
  | .te _ _ => 0x83D00000#32
  | .tg _ _ => 0x95D00000#32
  | .tle _ _ => 0x85D00000#32
  | .tge _ _ => 0x97D00000#32
  | .tl _ _ => 0x87D00000#32
  | .tgu _ _ => 0x99D00000#32
  | .tleu _ _ => 0x89D00000#32
  | .tcc _ _ => 0x9BD00000#32
  | .tcs _ _ => 0x8BD00000#32
  | .tpos _ _ => 0x9DD00000#32
  | .tneg _ _ => 0x8DD00000#32
  | .tvc _ _ => 0x9FD00000#32
  | .tvs _ _ => 0x8FD00000#32
  | .rdy _ => 0x81400000#32
  | .stbar => 0x8143C000#32
  | .rdasr _ _ => 0x81400000#32
  | .rdpsr _ => 0x81480000#32
  | .rdwim _ => 0x81500000#32
  | .rdtbr _ => 0x81580000#32
  | .wry _ _ => 0x81800000#32
  | .wrasr _ _ _ => 0x81800000#32
  | .wrpsr _ _ _ => 0x81880000#32
  | .wrwim _ _ => 0x81900000#32
  | .wrtbr _ _ => 0x81980000#32
  | .flush _ _ => 0x81D80000#32
  | .fpop1 _ _ _ _ => 0x81A00000#32
  | .fpop2 _ _ _ _ => 0x81A80000#32
  | .cpop1 _ _ _ _ => 0x81B00000#32
  | .cpop2 _ _ _ _ => 0x81B80000#32
  | .ldsb _ _ _ => 0xC0480000#32
  | .ldsh _ _ _ => 0xC0500000#32
  | .ldub _ _ _ => 0xC0080000#32
  | .lduh _ _ _ => 0xC0100000#32
  | .ld _ _ _ => 0xC0000000#32
  | .ldd _ _ _ => 0xC0180000#32
  | .stb _ _ _ => 0xC0280000#32
  | .sth _ _ _ => 0xC0300000#32
  | .st _ _ _ => 0xC0200000#32
  | .std _ _ _ => 0xC0380000#32
  | .ldstub _ _ _ => 0xC0680000#32
  | .swap _ _ _ => 0xC0780000#32
  | .ldsba _ _ _ _ => 0xC0C80000#32
  | .ldsha _ _ _ _ => 0xC0D00000#32
  | .lduba _ _ _ _ => 0xC0880000#32
  | .lduha _ _ _ _ => 0xC0900000#32
  | .lda _ _ _ _ => 0xC0800000#32
  | .ldda _ _ _ _ => 0xC0980000#32
  | .stba _ _ _ _ => 0xC0A80000#32
  | .stha _ _ _ _ => 0xC0B00000#32
  | .sta _ _ _ _ => 0xC0A00000#32
  | .stda _ _ _ _ => 0xC0B80000#32
  | .ldstuba _ _ _ _ => 0xC0E80000#32
  | .swapa _ _ _ _ => 0xC0F80000#32
  | .ldf _ _ _ => 0xC1000000#32
  | .ldfsr _ _ _ => 0xC1080000#32
  | .lddf _ _ _ => 0xC1180000#32
  | .stf _ _ _ => 0xC1200000#32
  | .stfsr _ _ _ => 0xC1280000#32
  | .stdfq _ _ _ => 0xC1300000#32
  | .stdf _ _ _ => 0xC1380000#32
  | .ldc _ _ _ => 0xC1800000#32
  | .ldcsr _ _ _ => 0xC1880000#32
  | .lddc _ _ _ => 0xC1980000#32
  | .stc _ _ _ => 0xC1A00000#32
  | .stcsr _ _ _ => 0xC1A80000#32
  | .stdcq _ _ _ => 0xC1B00000#32
  | .stdc _ _ _ => 0xC1B80000#32

/-- The word of an instruction lies in its row, in every implementation whose MAC instructions are in the operate group
(R211). -/
def Statement (i : Instr) : Prop := ∀ c : Config, c.macOp = 2#2 → encode c i &&& mask i = matchWord c i

theorem call (disp30 : BitVec 30) : Statement (.call disp30) := fun _ _ => by
  refine (append_and 1#2 3#2 disp30 0#30).trans ?_
  rw [BitVec.and_zero]
  rfl
theorem unimp (rd : RegNum) (const22 : BitVec 22) : Statement (.unimp rd const22) := fun _ _ =>
  (format2_mask ..).trans (by rfl)
theorem sethi (rd : RegNum) (imm22 : BitVec 22) : Statement (.sethi rd imm22) := fun _ _ =>
  (format2_mask ..).trans (by rfl)
theorem ba (a : Bool) (disp22 : BitVec 22) : Statement (.ba a disp22) := fun _ _ =>
  (formatBranch_mask ..).trans (by rfl)
theorem bn (a : Bool) (disp22 : BitVec 22) : Statement (.bn a disp22) := fun _ _ =>
  (formatBranch_mask ..).trans (by rfl)
theorem bne (a : Bool) (disp22 : BitVec 22) : Statement (.bne a disp22) := fun _ _ =>
  (formatBranch_mask ..).trans (by rfl)
theorem be (a : Bool) (disp22 : BitVec 22) : Statement (.be a disp22) := fun _ _ =>
  (formatBranch_mask ..).trans (by rfl)
theorem bg (a : Bool) (disp22 : BitVec 22) : Statement (.bg a disp22) := fun _ _ =>
  (formatBranch_mask ..).trans (by rfl)
theorem ble (a : Bool) (disp22 : BitVec 22) : Statement (.ble a disp22) := fun _ _ =>
  (formatBranch_mask ..).trans (by rfl)
theorem bge (a : Bool) (disp22 : BitVec 22) : Statement (.bge a disp22) := fun _ _ =>
  (formatBranch_mask ..).trans (by rfl)
theorem bl (a : Bool) (disp22 : BitVec 22) : Statement (.bl a disp22) := fun _ _ =>
  (formatBranch_mask ..).trans (by rfl)
theorem bgu (a : Bool) (disp22 : BitVec 22) : Statement (.bgu a disp22) := fun _ _ =>
  (formatBranch_mask ..).trans (by rfl)
theorem bleu (a : Bool) (disp22 : BitVec 22) : Statement (.bleu a disp22) := fun _ _ =>
  (formatBranch_mask ..).trans (by rfl)
theorem bcc (a : Bool) (disp22 : BitVec 22) : Statement (.bcc a disp22) := fun _ _ =>
  (formatBranch_mask ..).trans (by rfl)
theorem bcs (a : Bool) (disp22 : BitVec 22) : Statement (.bcs a disp22) := fun _ _ =>
  (formatBranch_mask ..).trans (by rfl)
theorem bpos (a : Bool) (disp22 : BitVec 22) : Statement (.bpos a disp22) := fun _ _ =>
  (formatBranch_mask ..).trans (by rfl)
theorem bneg (a : Bool) (disp22 : BitVec 22) : Statement (.bneg a disp22) := fun _ _ =>
  (formatBranch_mask ..).trans (by rfl)
theorem bvc (a : Bool) (disp22 : BitVec 22) : Statement (.bvc a disp22) := fun _ _ =>
  (formatBranch_mask ..).trans (by rfl)
theorem bvs (a : Bool) (disp22 : BitVec 22) : Statement (.bvs a disp22) := fun _ _ =>
  (formatBranch_mask ..).trans (by rfl)
theorem fbfcc (a : Bool) (cond : BitVec 4) (disp22 : BitVec 22) : Statement (.fbfcc a cond disp22) := fun _ _ =>
  (formatBranch_mask_op2 ..).trans (by rfl)
theorem cbccc (a : Bool) (cond : BitVec 4) (disp22 : BitVec 22) : Statement (.cbccc a cond disp22) := fun _ _ =>
  (formatBranch_mask_op2 ..).trans (by rfl)
theorem add (rd rs1 : RegNum) (op : Operand2) : Statement (.add rd rs1 op) := fun _ _ =>
  (format3_mask ..).trans (by rfl)
theorem addcc (rd rs1 : RegNum) (op : Operand2) : Statement (.addcc rd rs1 op) := fun _ _ =>
  (format3_mask ..).trans (by rfl)
theorem addx (rd rs1 : RegNum) (op : Operand2) : Statement (.addx rd rs1 op) := fun _ _ =>
  (format3_mask ..).trans (by rfl)
theorem addxcc (rd rs1 : RegNum) (op : Operand2) : Statement (.addxcc rd rs1 op) := fun _ _ =>
  (format3_mask ..).trans (by rfl)
theorem sub (rd rs1 : RegNum) (op : Operand2) : Statement (.sub rd rs1 op) := fun _ _ =>
  (format3_mask ..).trans (by rfl)
theorem subcc (rd rs1 : RegNum) (op : Operand2) : Statement (.subcc rd rs1 op) := fun _ _ =>
  (format3_mask ..).trans (by rfl)
theorem subx (rd rs1 : RegNum) (op : Operand2) : Statement (.subx rd rs1 op) := fun _ _ =>
  (format3_mask ..).trans (by rfl)
theorem subxcc (rd rs1 : RegNum) (op : Operand2) : Statement (.subxcc rd rs1 op) := fun _ _ =>
  (format3_mask ..).trans (by rfl)
theorem and (rd rs1 : RegNum) (op : Operand2) : Statement (.and rd rs1 op) := fun _ _ =>
  (format3_mask ..).trans (by rfl)
theorem andcc (rd rs1 : RegNum) (op : Operand2) : Statement (.andcc rd rs1 op) := fun _ _ =>
  (format3_mask ..).trans (by rfl)
theorem andn (rd rs1 : RegNum) (op : Operand2) : Statement (.andn rd rs1 op) := fun _ _ =>
  (format3_mask ..).trans (by rfl)
theorem andncc (rd rs1 : RegNum) (op : Operand2) : Statement (.andncc rd rs1 op) := fun _ _ =>
  (format3_mask ..).trans (by rfl)
theorem or (rd rs1 : RegNum) (op : Operand2) : Statement (.or rd rs1 op) := fun _ _ =>
  (format3_mask ..).trans (by rfl)
theorem orcc (rd rs1 : RegNum) (op : Operand2) : Statement (.orcc rd rs1 op) := fun _ _ =>
  (format3_mask ..).trans (by rfl)
theorem orn (rd rs1 : RegNum) (op : Operand2) : Statement (.orn rd rs1 op) := fun _ _ =>
  (format3_mask ..).trans (by rfl)
theorem orncc (rd rs1 : RegNum) (op : Operand2) : Statement (.orncc rd rs1 op) := fun _ _ =>
  (format3_mask ..).trans (by rfl)
theorem xor (rd rs1 : RegNum) (op : Operand2) : Statement (.xor rd rs1 op) := fun _ _ =>
  (format3_mask ..).trans (by rfl)
theorem xorcc (rd rs1 : RegNum) (op : Operand2) : Statement (.xorcc rd rs1 op) := fun _ _ =>
  (format3_mask ..).trans (by rfl)
theorem xnor (rd rs1 : RegNum) (op : Operand2) : Statement (.xnor rd rs1 op) := fun _ _ =>
  (format3_mask ..).trans (by rfl)
theorem xnorcc (rd rs1 : RegNum) (op : Operand2) : Statement (.xnorcc rd rs1 op) := fun _ _ =>
  (format3_mask ..).trans (by rfl)
theorem sll (rd rs1 : RegNum) (op : ShiftOperand) : Statement (.sll rd rs1 op) := fun _ _ =>
  (format3_mask ..).trans (by rfl)
theorem srl (rd rs1 : RegNum) (op : ShiftOperand) : Statement (.srl rd rs1 op) := fun _ _ =>
  (format3_mask ..).trans (by rfl)
theorem sra (rd rs1 : RegNum) (op : ShiftOperand) : Statement (.sra rd rs1 op) := fun _ _ =>
  (format3_mask ..).trans (by rfl)
theorem taddcc (rd rs1 : RegNum) (op : Operand2) : Statement (.taddcc rd rs1 op) := fun _ _ =>
  (format3_mask ..).trans (by rfl)
theorem tsubcc (rd rs1 : RegNum) (op : Operand2) : Statement (.tsubcc rd rs1 op) := fun _ _ =>
  (format3_mask ..).trans (by rfl)
theorem taddccTV (rd rs1 : RegNum) (op : Operand2) : Statement (.taddccTV rd rs1 op) := fun _ _ =>
  (format3_mask ..).trans (by rfl)
theorem tsubccTV (rd rs1 : RegNum) (op : Operand2) : Statement (.tsubccTV rd rs1 op) := fun _ _ =>
  (format3_mask ..).trans (by rfl)
theorem mulscc (rd rs1 : RegNum) (op : Operand2) : Statement (.mulscc rd rs1 op) := fun _ _ =>
  (format3_mask ..).trans (by rfl)
theorem umul (rd rs1 : RegNum) (op : Operand2) : Statement (.umul rd rs1 op) := fun _ _ =>
  (format3_mask ..).trans (by rfl)
theorem umulcc (rd rs1 : RegNum) (op : Operand2) : Statement (.umulcc rd rs1 op) := fun _ _ =>
  (format3_mask ..).trans (by rfl)
theorem smul (rd rs1 : RegNum) (op : Operand2) : Statement (.smul rd rs1 op) := fun _ _ =>
  (format3_mask ..).trans (by rfl)
theorem smulcc (rd rs1 : RegNum) (op : Operand2) : Statement (.smulcc rd rs1 op) := fun _ _ =>
  (format3_mask ..).trans (by rfl)
theorem udiv (rd rs1 : RegNum) (op : Operand2) : Statement (.udiv rd rs1 op) := fun _ _ =>
  (format3_mask ..).trans (by rfl)
theorem udivcc (rd rs1 : RegNum) (op : Operand2) : Statement (.udivcc rd rs1 op) := fun _ _ =>
  (format3_mask ..).trans (by rfl)
theorem sdiv (rd rs1 : RegNum) (op : Operand2) : Statement (.sdiv rd rs1 op) := fun _ _ =>
  (format3_mask ..).trans (by rfl)
theorem sdivcc (rd rs1 : RegNum) (op : Operand2) : Statement (.sdivcc rd rs1 op) := fun _ _ =>
  (format3_mask ..).trans (by rfl)
theorem save (rd rs1 : RegNum) (op : Operand2) : Statement (.save rd rs1 op) := fun _ _ =>
  (format3_mask ..).trans (by rfl)
theorem restore (rd rs1 : RegNum) (op : Operand2) : Statement (.restore rd rs1 op) := fun _ _ =>
  (format3_mask ..).trans (by rfl)
theorem divscc (rd rs1 : RegNum) (op : Operand2) : Statement (.divscc rd rs1 op) := fun _ _ =>
  (format3_mask ..).trans (by rfl)
theorem scan (rd rs1 : RegNum) (op : Operand2) : Statement (.scan rd rs1 op) := fun _ _ =>
  (format3_mask ..).trans (by rfl)
theorem umac (rd rs1 : RegNum) (op : Operand2) : Statement (.umac rd rs1 op) := fun c hc => by
  simp only [encode, mask, matchWord, hc, format3_mask]
theorem umaccc (rd rs1 : RegNum) (op : Operand2) : Statement (.umaccc rd rs1 op) := fun c hc => by
  simp only [encode, mask, matchWord, hc, format3_mask]
theorem smac (rd rs1 : RegNum) (op : Operand2) : Statement (.smac rd rs1 op) := fun c hc => by
  simp only [encode, mask, matchWord, hc, format3_mask]
theorem smaccc (rd rs1 : RegNum) (op : Operand2) : Statement (.smaccc rd rs1 op) := fun c hc => by
  simp only [encode, mask, matchWord, hc, format3_mask]
theorem jmpl (rd rs1 : RegNum) (op : Operand2) : Statement (.jmpl rd rs1 op) := fun _ _ =>
  (format3_mask ..).trans (by rfl)
theorem rett (rs1 : RegNum) (op : Operand2) : Statement (.rett rs1 op) := fun _ _ =>
  (format3_mask ..).trans (by rfl)
theorem ta (rs1 : RegNum) (op : TrapOperand) : Statement (.ta rs1 op) := fun _ _ =>
  (formatTrap_mask ..).trans (by rfl)
theorem tn (rs1 : RegNum) (op : TrapOperand) : Statement (.tn rs1 op) := fun _ _ =>
  (formatTrap_mask ..).trans (by rfl)
theorem tne (rs1 : RegNum) (op : TrapOperand) : Statement (.tne rs1 op) := fun _ _ =>
  (formatTrap_mask ..).trans (by rfl)
theorem te (rs1 : RegNum) (op : TrapOperand) : Statement (.te rs1 op) := fun _ _ =>
  (formatTrap_mask ..).trans (by rfl)
theorem tg (rs1 : RegNum) (op : TrapOperand) : Statement (.tg rs1 op) := fun _ _ =>
  (formatTrap_mask ..).trans (by rfl)
theorem tle (rs1 : RegNum) (op : TrapOperand) : Statement (.tle rs1 op) := fun _ _ =>
  (formatTrap_mask ..).trans (by rfl)
theorem tge (rs1 : RegNum) (op : TrapOperand) : Statement (.tge rs1 op) := fun _ _ =>
  (formatTrap_mask ..).trans (by rfl)
theorem tl (rs1 : RegNum) (op : TrapOperand) : Statement (.tl rs1 op) := fun _ _ =>
  (formatTrap_mask ..).trans (by rfl)
theorem tgu (rs1 : RegNum) (op : TrapOperand) : Statement (.tgu rs1 op) := fun _ _ =>
  (formatTrap_mask ..).trans (by rfl)
theorem tleu (rs1 : RegNum) (op : TrapOperand) : Statement (.tleu rs1 op) := fun _ _ =>
  (formatTrap_mask ..).trans (by rfl)
theorem tcc (rs1 : RegNum) (op : TrapOperand) : Statement (.tcc rs1 op) := fun _ _ =>
  (formatTrap_mask ..).trans (by rfl)
theorem tcs (rs1 : RegNum) (op : TrapOperand) : Statement (.tcs rs1 op) := fun _ _ =>
  (formatTrap_mask ..).trans (by rfl)
theorem tpos (rs1 : RegNum) (op : TrapOperand) : Statement (.tpos rs1 op) := fun _ _ =>
  (formatTrap_mask ..).trans (by rfl)
theorem tneg (rs1 : RegNum) (op : TrapOperand) : Statement (.tneg rs1 op) := fun _ _ =>
  (formatTrap_mask ..).trans (by rfl)
theorem tvc (rs1 : RegNum) (op : TrapOperand) : Statement (.tvc rs1 op) := fun _ _ =>
  (formatTrap_mask ..).trans (by rfl)
theorem tvs (rs1 : RegNum) (op : TrapOperand) : Statement (.tvs rs1 op) := fun _ _ =>
  (formatTrap_mask ..).trans (by rfl)
theorem rdy (rd : RegNum) : Statement (.rdy rd) := fun _ _ =>
  (format3_mask_rs1 ..).trans (by rfl)
theorem stbar : Statement .stbar := fun _ _ =>
  show format3 2#2 0#5 0x28#6 15#5 0#14 &&& 0xFFFFC000#32 = 0x8143C000#32 from by decide
theorem rdasr (rd rs1 : RegNum) : Statement (.rdasr rd rs1) := fun _ _ =>
  (format3_mask ..).trans (by rfl)
theorem rdpsr (rd : RegNum) : Statement (.rdpsr rd) := fun _ _ =>
  (format3_mask ..).trans (by rfl)
theorem rdwim (rd : RegNum) : Statement (.rdwim rd) := fun _ _ =>
  (format3_mask ..).trans (by rfl)
theorem rdtbr (rd : RegNum) : Statement (.rdtbr rd) := fun _ _ =>
  (format3_mask ..).trans (by rfl)
theorem wry (rs1 : RegNum) (op : Operand2) : Statement (.wry rs1 op) := fun _ _ =>
  (format3_mask_rd ..).trans (by rfl)
theorem wrasr (rd rs1 : RegNum) (op : Operand2) : Statement (.wrasr rd rs1 op) := fun _ _ =>
  (format3_mask ..).trans (by rfl)
theorem wrpsr (rd rs1 : RegNum) (op : Operand2) : Statement (.wrpsr rd rs1 op) := fun _ _ =>
  (format3_mask ..).trans (by rfl)
theorem wrwim (rs1 : RegNum) (op : Operand2) : Statement (.wrwim rs1 op) := fun _ _ =>
  (format3_mask ..).trans (by rfl)
theorem wrtbr (rs1 : RegNum) (op : Operand2) : Statement (.wrtbr rs1 op) := fun _ _ =>
  (format3_mask ..).trans (by rfl)
theorem flush (rs1 : RegNum) (op : Operand2) : Statement (.flush rs1 op) := fun _ _ =>
  (format3_mask ..).trans (by rfl)
theorem fpop1 (rd rs1 : RegNum) (opf : BitVec 9) (rs2 : RegNum) : Statement (.fpop1 rd rs1 opf rs2) := fun _ _ =>
  (format3_mask ..).trans (by rfl)
theorem fpop2 (rd rs1 : RegNum) (opf : BitVec 9) (rs2 : RegNum) : Statement (.fpop2 rd rs1 opf rs2) := fun _ _ =>
  (format3_mask ..).trans (by rfl)
theorem cpop1 (rd rs1 : RegNum) (opf : BitVec 9) (rs2 : RegNum) : Statement (.cpop1 rd rs1 opf rs2) := fun _ _ =>
  (format3_mask ..).trans (by rfl)
theorem cpop2 (rd rs1 : RegNum) (opf : BitVec 9) (rs2 : RegNum) : Statement (.cpop2 rd rs1 opf rs2) := fun _ _ =>
  (format3_mask ..).trans (by rfl)
theorem ldsb (rd rs1 : RegNum) (op : Operand2) : Statement (.ldsb rd rs1 op) := fun _ _ =>
  (format3_mask ..).trans (by rfl)
theorem ldsh (rd rs1 : RegNum) (op : Operand2) : Statement (.ldsh rd rs1 op) := fun _ _ =>
  (format3_mask ..).trans (by rfl)
theorem ldub (rd rs1 : RegNum) (op : Operand2) : Statement (.ldub rd rs1 op) := fun _ _ =>
  (format3_mask ..).trans (by rfl)
theorem lduh (rd rs1 : RegNum) (op : Operand2) : Statement (.lduh rd rs1 op) := fun _ _ =>
  (format3_mask ..).trans (by rfl)
theorem ld (rd rs1 : RegNum) (op : Operand2) : Statement (.ld rd rs1 op) := fun _ _ =>
  (format3_mask ..).trans (by rfl)
theorem ldd (rd rs1 : RegNum) (op : Operand2) : Statement (.ldd rd rs1 op) := fun _ _ =>
  (format3_mask ..).trans (by rfl)
theorem stb (rd rs1 : RegNum) (op : Operand2) : Statement (.stb rd rs1 op) := fun _ _ =>
  (format3_mask ..).trans (by rfl)
theorem sth (rd rs1 : RegNum) (op : Operand2) : Statement (.sth rd rs1 op) := fun _ _ =>
  (format3_mask ..).trans (by rfl)
theorem st (rd rs1 : RegNum) (op : Operand2) : Statement (.st rd rs1 op) := fun _ _ =>
  (format3_mask ..).trans (by rfl)
theorem std (rd rs1 : RegNum) (op : Operand2) : Statement (.std rd rs1 op) := fun _ _ =>
  (format3_mask ..).trans (by rfl)
theorem ldstub (rd rs1 : RegNum) (op : Operand2) : Statement (.ldstub rd rs1 op) := fun _ _ =>
  (format3_mask ..).trans (by rfl)
theorem swap (rd rs1 : RegNum) (op : Operand2) : Statement (.swap rd rs1 op) := fun _ _ =>
  (format3_mask ..).trans (by rfl)
theorem ldsba (rd rs1 : RegNum) (asi : Asi) (rs2 : RegNum) : Statement (.ldsba rd rs1 asi rs2) := fun _ _ =>
  (format3Asi_mask ..).trans (by rfl)
theorem ldsha (rd rs1 : RegNum) (asi : Asi) (rs2 : RegNum) : Statement (.ldsha rd rs1 asi rs2) := fun _ _ =>
  (format3Asi_mask ..).trans (by rfl)
theorem lduba (rd rs1 : RegNum) (asi : Asi) (rs2 : RegNum) : Statement (.lduba rd rs1 asi rs2) := fun _ _ =>
  (format3Asi_mask ..).trans (by rfl)
theorem lduha (rd rs1 : RegNum) (asi : Asi) (rs2 : RegNum) : Statement (.lduha rd rs1 asi rs2) := fun _ _ =>
  (format3Asi_mask ..).trans (by rfl)
theorem lda (rd rs1 : RegNum) (asi : Asi) (rs2 : RegNum) : Statement (.lda rd rs1 asi rs2) := fun _ _ =>
  (format3Asi_mask ..).trans (by rfl)
theorem ldda (rd rs1 : RegNum) (asi : Asi) (rs2 : RegNum) : Statement (.ldda rd rs1 asi rs2) := fun _ _ =>
  (format3Asi_mask ..).trans (by rfl)
theorem stba (rd rs1 : RegNum) (asi : Asi) (rs2 : RegNum) : Statement (.stba rd rs1 asi rs2) := fun _ _ =>
  (format3Asi_mask ..).trans (by rfl)
theorem stha (rd rs1 : RegNum) (asi : Asi) (rs2 : RegNum) : Statement (.stha rd rs1 asi rs2) := fun _ _ =>
  (format3Asi_mask ..).trans (by rfl)
theorem sta (rd rs1 : RegNum) (asi : Asi) (rs2 : RegNum) : Statement (.sta rd rs1 asi rs2) := fun _ _ =>
  (format3Asi_mask ..).trans (by rfl)
theorem stda (rd rs1 : RegNum) (asi : Asi) (rs2 : RegNum) : Statement (.stda rd rs1 asi rs2) := fun _ _ =>
  (format3Asi_mask ..).trans (by rfl)
theorem ldstuba (rd rs1 : RegNum) (asi : Asi) (rs2 : RegNum) : Statement (.ldstuba rd rs1 asi rs2) := fun _ _ =>
  (format3Asi_mask ..).trans (by rfl)
theorem swapa (rd rs1 : RegNum) (asi : Asi) (rs2 : RegNum) : Statement (.swapa rd rs1 asi rs2) := fun _ _ =>
  (format3Asi_mask ..).trans (by rfl)
theorem ldf (rd rs1 : RegNum) (op : Operand2) : Statement (.ldf rd rs1 op) := fun _ _ =>
  (format3_mask ..).trans (by rfl)
theorem ldfsr (rd rs1 : RegNum) (op : Operand2) : Statement (.ldfsr rd rs1 op) := fun _ _ =>
  (format3_mask ..).trans (by rfl)
theorem lddf (rd rs1 : RegNum) (op : Operand2) : Statement (.lddf rd rs1 op) := fun _ _ =>
  (format3_mask ..).trans (by rfl)
theorem stf (rd rs1 : RegNum) (op : Operand2) : Statement (.stf rd rs1 op) := fun _ _ =>
  (format3_mask ..).trans (by rfl)
theorem stfsr (rd rs1 : RegNum) (op : Operand2) : Statement (.stfsr rd rs1 op) := fun _ _ =>
  (format3_mask ..).trans (by rfl)
theorem stdfq (rd rs1 : RegNum) (op : Operand2) : Statement (.stdfq rd rs1 op) := fun _ _ =>
  (format3_mask ..).trans (by rfl)
theorem stdf (rd rs1 : RegNum) (op : Operand2) : Statement (.stdf rd rs1 op) := fun _ _ =>
  (format3_mask ..).trans (by rfl)
theorem ldc (rd rs1 : RegNum) (op : Operand2) : Statement (.ldc rd rs1 op) := fun _ _ =>
  (format3_mask ..).trans (by rfl)
theorem ldcsr (rd rs1 : RegNum) (op : Operand2) : Statement (.ldcsr rd rs1 op) := fun _ _ =>
  (format3_mask ..).trans (by rfl)
theorem lddc (rd rs1 : RegNum) (op : Operand2) : Statement (.lddc rd rs1 op) := fun _ _ =>
  (format3_mask ..).trans (by rfl)
theorem stc (rd rs1 : RegNum) (op : Operand2) : Statement (.stc rd rs1 op) := fun _ _ =>
  (format3_mask ..).trans (by rfl)
theorem stcsr (rd rs1 : RegNum) (op : Operand2) : Statement (.stcsr rd rs1 op) := fun _ _ =>
  (format3_mask ..).trans (by rfl)
theorem stdcq (rd rs1 : RegNum) (op : Operand2) : Statement (.stdcq rd rs1 op) := fun _ _ =>
  (format3_mask ..).trans (by rfl)
theorem stdc (rd rs1 : RegNum) (op : Operand2) : Statement (.stdc rd rs1 op) := fun _ _ =>
  (format3_mask ..).trans (by rfl)

end Row

end Sys2Proof.Laws
end

