-- ==== Sys2Proof/Laws/Peripherals.lean ====
section
/-! SUPPORT. The registers narrower than a word and the down-counters of the peripherals. -/

namespace Sys2Proof.Machine

/-- A value that fits `n` bits is its own low `n` bits. -/
theorem and_lowMask_of_lt {n : Nat} (hn : n ≤ 32) {w : Word} (hw : w.toNat < 2 ^ n) : w &&& lowMask n = w := by
  have hp : 2 ^ n ≤ 2 ^ 32 := Nat.pow_le_pow_right (by decide) hn
  have h1 : 0 < 2 ^ n := Nat.two_pow_pos n
  apply BitVec.eq_of_toNat_eq
  rw [BitVec.toNat_and, lowMask, BitVec.toNat_ofNat, Nat.mod_eq_of_lt (by omega), Nat.and_two_pow_sub_one_eq_mod,
    Nat.mod_eq_of_lt hw]

/-- A down-count from a value that fits and is not 0 subtracts 1, whatever the free value is. -/
theorem countDown_of_ne_zero {bits : Nat} (hn : bits ≤ 32) (free : Word) {w : Word} (hw : w.toNat < 2 ^ bits) (h0 : w ≠ 0#32) :
    countDown bits free w = w - 1#32 := by
  rw [countDown, if_neg h0]
  exact and_lowMask_of_lt hn (by bv_omega)

/-- A pulse generator that is not enabled, or does not run, ignores a count pulse (spec/61_timers_dsu.md R605). -/
theorem Ppg.countPulse_idle (c : Config) (free : Word × Word) (p : Ppg) (enable : Bool) (h : (enable && p.sRun) = false) :
    p.countPulse c free enable = p := by simp [Ppg.countPulse, h]

end Sys2Proof.Machine
end

