-- ==== Sys2Proof/Tests/Slice0.lean ====
section
/-! SUPPORT. Small tests: words of the spec's encodings decode, ill-formed terms are refused, one step of each instruction
gives the spec's worked values (spec/95_test_vectors.md, spec/96_test_vectors_derived.md), and the hypotheses of every
statement can be met. -/

namespace Sys2Proof.Tests

open Sys2Proof Sys2Proof.Machine

/-! ## Decoding: one word per row of spec/opcode_table.json, written from its encoding -/

theorem test_decode_branches1 : ∀ p ∈ ([
    (0b01010010001101000101011001111000, .call 0x12345678#30),
    (0b00000110000000010010001101000101, .unimp 3#5 0x12345#22),
    (0b00010011001010111100110111101111, .sethi 9#5 0x2BCDEF#22),
    (0b00010000100000000000000000000101, .ba false 5#22),
    (0b00100000101111111111111111111110, .bn true 0x3FFFFE#22),
    (0b00010010100000000000000000000101, .bne false 5#22),
    (0b00100010101111111111111111111110, .be true 0x3FFFFE#22),
    (0b00010100100000000000000000000101, .bg false 5#22),
    (0b00100100101111111111111111111110, .ble true 0x3FFFFE#22),
    (0b00010110100000000000000000000101, .bge false 5#22),
    (0b00100110101111111111111111111110, .bl true 0x3FFFFE#22),
    (0b00011000100000000000000000000101, .bgu false 5#22),
    (0b00101000101111111111111111111110, .bleu true 0x3FFFFE#22),
    (0b00011010100000000000000000000101, .bcc false 5#22),
    (0b00101010101111111111111111111110, .bcs true 0x3FFFFE#22),
    (0b00011100100000000000000000000101, .bpos false 5#22),
    (0b00101100101111111111111111111110, .bneg true 0x3FFFFE#22),
    (0b00011110100000000000000000000101, .bvc false 5#22)] : List (Nat × Instr)),
    decodeTableWord 32 p.1 = some p.2 := by decide

theorem test_decode_branches2 : ∀ p ∈ ([
    (0b00101110101111111111111111111110, .bvs true 0x3FFFFE#22),
    (0b00010101100000000000000000000111, .fbfcc false 0xA#4 7#22),
    (0b00110101110000000000000000000111, .cbccc true 0xA#4 7#22)] : List (Nat × Instr)),
    decodeTableWord 32 p.1 = some p.2 := by decide

theorem test_decode_traps : ∀ p ∈ ([
    (0b10010001110100101000000000001011, .ta 10#5 (.reg 11#5)),
    (0b10000001110100101010000001010101, .tn 10#5 (.imm 0x55#7)),
    (0b10010011110100101000000000001011, .tne 10#5 (.reg 11#5)),
    (0b10000011110100101010000001010101, .te 10#5 (.imm 0x55#7)),
    (0b10010101110100101000000000001011, .tg 10#5 (.reg 11#5)),
    (0b10000101110100101010000001010101, .tle 10#5 (.imm 0x55#7)),
    (0b10010111110100101000000000001011, .tge 10#5 (.reg 11#5)),
    (0b10000111110100101010000001010101, .tl 10#5 (.imm 0x55#7)),
    (0b10011001110100101000000000001011, .tgu 10#5 (.reg 11#5)),
    (0b10001001110100101010000001010101, .tleu 10#5 (.imm 0x55#7)),
    (0b10011011110100101000000000001011, .tcc 10#5 (.reg 11#5)),
    (0b10001011110100101010000001010101, .tcs 10#5 (.imm 0x55#7)),
    (0b10011101110100101000000000001011, .tpos 10#5 (.reg 11#5)),
    (0b10001101110100101010000001010101, .tneg 10#5 (.imm 0x55#7)),
    (0b10011111110100101000000000001011, .tvc 10#5 (.reg 11#5)),
    (0b10001111110100101010000001010101, .tvs 10#5 (.imm 0x55#7))] : List (Nat × Instr)),
    decodeTableWord 32 p.1 = some p.2 := by decide

theorem test_decode_arithmetic1 : ∀ p ∈ ([
    (0b10010010000000101000000000001011, .add 9#5 10#5 (.reg 11#5)),
    (0b10010010100000101011101010111100, .addcc 9#5 10#5 (.imm 0x1ABC#13)),
    (0b10010010010000101000000000001011, .addx 9#5 10#5 (.reg 11#5)),
    (0b10010010110000101011101010111100, .addxcc 9#5 10#5 (.imm 0x1ABC#13)),
    (0b10010010001000101000000000001011, .sub 9#5 10#5 (.reg 11#5)),
    (0b10010010101000101011101010111100, .subcc 9#5 10#5 (.imm 0x1ABC#13)),
    (0b10010010011000101000000000001011, .subx 9#5 10#5 (.reg 11#5)),
    (0b10010010111000101011101010111100, .subxcc 9#5 10#5 (.imm 0x1ABC#13)),
    (0b10010010000010101000000000001011, .and 9#5 10#5 (.reg 11#5)),
    (0b10010010100010101011101010111100, .andcc 9#5 10#5 (.imm 0x1ABC#13)),
    (0b10010010001010101000000000001011, .andn 9#5 10#5 (.reg 11#5)),
    (0b10010010101010101011101010111100, .andncc 9#5 10#5 (.imm 0x1ABC#13)),
    (0b10010010000100101000000000001011, .or 9#5 10#5 (.reg 11#5)),
    (0b10010010100100101011101010111100, .orcc 9#5 10#5 (.imm 0x1ABC#13)),
    (0b10010010001100101000000000001011, .orn 9#5 10#5 (.reg 11#5)),
    (0b10010010101100101011101010111100, .orncc 9#5 10#5 (.imm 0x1ABC#13)),
    (0b10010010000110101000000000001011, .xor 9#5 10#5 (.reg 11#5)),
    (0b10010010100110101011101010111100, .xorcc 9#5 10#5 (.imm 0x1ABC#13))] : List (Nat × Instr)),
    decodeTableWord 32 p.1 = some p.2 := by decide

theorem test_decode_arithmetic2 : ∀ p ∈ ([
    (0b10010010001110101000000000001011, .xnor 9#5 10#5 (.reg 11#5)),
    (0b10010010101110101011101010111100, .xnorcc 9#5 10#5 (.imm 0x1ABC#13)),
    (0b10010011001010101000000000001011, .sll 9#5 10#5 (.reg 11#5)),
    (0b10010011001100101010000000011101, .srl 9#5 10#5 (.imm 29#5)),
    (0b10010011001110101000000000001011, .sra 9#5 10#5 (.reg 11#5)),
    (0b10010011000000101011101010111100, .taddcc 9#5 10#5 (.imm 0x1ABC#13)),
    (0b10010011000010101000000000001011, .tsubcc 9#5 10#5 (.reg 11#5)),
    (0b10010011000100101011101010111100, .taddccTV 9#5 10#5 (.imm 0x1ABC#13)),
    (0b10010011000110101000000000001011, .tsubccTV 9#5 10#5 (.reg 11#5)),
    (0b10010011001000101011101010111100, .mulscc 9#5 10#5 (.imm 0x1ABC#13)),
    (0b10010010010100101000000000001011, .umul 9#5 10#5 (.reg 11#5)),
    (0b10010010110100101011101010111100, .umulcc 9#5 10#5 (.imm 0x1ABC#13)),
    (0b10010010010110101000000000001011, .smul 9#5 10#5 (.reg 11#5)),
    (0b10010010110110101011101010111100, .smulcc 9#5 10#5 (.imm 0x1ABC#13)),
    (0b10010010011100101000000000001011, .udiv 9#5 10#5 (.reg 11#5)),
    (0b10010010111100101011101010111100, .udivcc 9#5 10#5 (.imm 0x1ABC#13)),
    (0b10010010011110101000000000001011, .sdiv 9#5 10#5 (.reg 11#5)),
    (0b10010010111110101011101010111100, .sdivcc 9#5 10#5 (.imm 0x1ABC#13))] : List (Nat × Instr)),
    decodeTableWord 32 p.1 = some p.2 := by decide

theorem test_decode_arithmetic3 : ∀ p ∈ ([
    (0b10010011111000101000000000001011, .save 9#5 10#5 (.reg 11#5)),
    (0b10010011111010101011101010111100, .restore 9#5 10#5 (.imm 0x1ABC#13)),
    (0b10010010111010101000000000001011, .divscc 9#5 10#5 (.reg 11#5)),
    (0b10010011011000101011101010111100, .scan 9#5 10#5 (.imm 0x1ABC#13)),
    (0b10010011111100101000000000001011, .umac 9#5 10#5 (.reg 11#5)),
    (0b10010011011100101011101010111100, .umaccc 9#5 10#5 (.imm 0x1ABC#13)),
    (0b10010011111110101000000000001011, .smac 9#5 10#5 (.reg 11#5)),
    (0b10010011011110101011101010111100, .smaccc 9#5 10#5 (.imm 0x1ABC#13))] : List (Nat × Instr)),
    decodeTableWord 32 p.1 = some p.2 := by decide

theorem test_decode_system : ∀ p ∈ ([
    (0b10010011110000101000000000001011, .jmpl 9#5 10#5 (.reg 11#5)),
    (0b10000001110010101011101010111100, .rett 10#5 (.imm 0x1ABC#13)),
    (0b10010011010000000000000000000000, .rdy 9#5),
    (0b10000001010000111100000000000000, .stbar),
    (0b10010011010000101000000000000000, .rdasr 9#5 10#5),
    (0b10010011010010000000000000000000, .rdpsr 9#5),
    (0b10010011010100000000000000000000, .rdwim 9#5),
    (0b10010011010110000000000000000000, .rdtbr 9#5),
    (0b10000001100000101000000000001011, .wry 10#5 (.reg 11#5)),
    (0b10010011100000101011101010111100, .wrasr 9#5 10#5 (.imm 0x1ABC#13)),
    (0b10000011100010101000000000001011, .wrpsr 1#5 10#5 (.reg 11#5)),
    (0b10000001100100101011101010111100, .wrwim 10#5 (.imm 0x1ABC#13)),
    (0b10000001100110101000000000001011, .wrtbr 10#5 (.reg 11#5)),
    (0b10000001110110101011101010111100, .flush 10#5 (.imm 0x1ABC#13)),
    (0b10010011101000101010101010101011, .fpop1 9#5 10#5 0x155#9 11#5),
    (0b10010011101010101010101010101011, .fpop2 9#5 10#5 0x155#9 11#5),
    (0b10010011101100101010101010101011, .cpop1 9#5 10#5 0x155#9 11#5),
    (0b10010011101110101010101010101011, .cpop2 9#5 10#5 0x155#9 11#5)] : List (Nat × Instr)),
    decodeTableWord 32 p.1 = some p.2 := by decide

theorem test_decode_memory : ∀ p ∈ ([
    (0b11010010010010101000000000001011, .ldsb 9#5 10#5 (.reg 11#5)),
    (0b11010010010100101011101010111100, .ldsh 9#5 10#5 (.imm 0x1ABC#13)),
    (0b11010010000010101000000000001011, .ldub 9#5 10#5 (.reg 11#5)),
    (0b11010010000100101011101010111100, .lduh 9#5 10#5 (.imm 0x1ABC#13)),
    (0b11010010000000101000000000001011, .ld 9#5 10#5 (.reg 11#5)),
    (0b11010010000110101011101010111100, .ldd 9#5 10#5 (.imm 0x1ABC#13)),
    (0b11010010001010101000000000001011, .stb 9#5 10#5 (.reg 11#5)),
    (0b11010010001100101011101010111100, .sth 9#5 10#5 (.imm 0x1ABC#13)),
    (0b11010010001000101000000000001011, .st 9#5 10#5 (.reg 11#5)),
    (0b11010010001110101011101010111100, .std 9#5 10#5 (.imm 0x1ABC#13)),
    (0b11010010011010101000000000001011, .ldstub 9#5 10#5 (.reg 11#5)),
    (0b11010010011110101011101010111100, .swap 9#5 10#5 (.imm 0x1ABC#13))] : List (Nat × Instr)),
    decodeTableWord 32 p.1 = some p.2 := by decide

theorem test_decode_alternate : ∀ p ∈ ([
    (0b11010010110010101001000101101011, .ldsba 9#5 10#5 0x8B#8 11#5),
    (0b11010010110100101001000101101011, .ldsha 9#5 10#5 0x8B#8 11#5),
    (0b11010010100010101001000101101011, .lduba 9#5 10#5 0x8B#8 11#5),
    (0b11010010100100101001000101101011, .lduha 9#5 10#5 0x8B#8 11#5),
    (0b11010010100000101001000101101011, .lda 9#5 10#5 0x8B#8 11#5),
    (0b11010010100110101001000101101011, .ldda 9#5 10#5 0x8B#8 11#5),
    (0b11010010101010101001000101101011, .stba 9#5 10#5 0x8B#8 11#5),
    (0b11010010101100101001000101101011, .stha 9#5 10#5 0x8B#8 11#5),
    (0b11010010101000101001000101101011, .sta 9#5 10#5 0x8B#8 11#5),
    (0b11010010101110101001000101101011, .stda 9#5 10#5 0x8B#8 11#5),
    (0b11010010111010101001000101101011, .ldstuba 9#5 10#5 0x8B#8 11#5),
    (0b11010010111110101001000101101011, .swapa 9#5 10#5 0x8B#8 11#5)] : List (Nat × Instr)),
    decodeTableWord 32 p.1 = some p.2 := by decide

theorem test_decode_units : ∀ p ∈ ([
    (0b11010011000000101000000000001011, .ldf 9#5 10#5 (.reg 11#5)),
    (0b11010011000010101011101010111100, .ldfsr 9#5 10#5 (.imm 0x1ABC#13)),
    (0b11010011000110101000000000001011, .lddf 9#5 10#5 (.reg 11#5)),
    (0b11010011001000101011101010111100, .stf 9#5 10#5 (.imm 0x1ABC#13)),
    (0b11010011001010101000000000001011, .stfsr 9#5 10#5 (.reg 11#5)),
    (0b11010011001100101011101010111100, .stdfq 9#5 10#5 (.imm 0x1ABC#13)),
    (0b11010011001110101000000000001011, .stdf 9#5 10#5 (.reg 11#5)),
    (0b11010011100000101011101010111100, .ldc 9#5 10#5 (.imm 0x1ABC#13)),
    (0b11010011100010101000000000001011, .ldcsr 9#5 10#5 (.reg 11#5)),
    (0b11010011100110101011101010111100, .lddc 9#5 10#5 (.imm 0x1ABC#13)),
    (0b11010011101000101000000000001011, .stc 9#5 10#5 (.reg 11#5)),
    (0b11010011101010101011101010111100, .stcsr 9#5 10#5 (.imm 0x1ABC#13)),
    (0b11010011101100101000000000001011, .stdcq 9#5 10#5 (.reg 11#5)),
    (0b11010011101110101011101010111100, .stdc 9#5 10#5 (.imm 0x1ABC#13))] : List (Nat × Instr)),
    decodeTableWord 32 p.1 = some p.2 := by decide

/-- Words that the spec prints in its examples (spec/95_test_vectors.md section 1, spec/96_test_vectors_derived.md). -/
theorem test_decode_examples : ∀ p ∈ ([
    (0x12800003, .bne false 3#22), (0x30800004, .ba true 4#22), (0x01000000, .sethi 0#5 0#22),
    (0x81C3E008, .jmpl 0#5 15#5 (.imm 8#13)), (0x81CC8000, .rett 18#5 (.reg 0#5)), (0x91D02003, .ta 0#5 (.imm 3#7)),
    (0x8143C000, .stbar), (0x83444000, .rdasr 1#5 17#5), (0xA3802001, .wrasr 17#5 0#5 (.imm 1#13)),
    (0x818820E0, .wrpsr 0#5 0#5 (.imm 0xE0#13)), (0x92EA400A, .divscc 9#5 9#5 (.reg 10#5)),
    (0x93623FFF, .scan 9#5 8#5 (.imm 0x1FFF#13)), (0xD0804FE0, .lda 8#5 1#5 0x7F#8 0#5)] : List (Nat × Instr)),
    decodeTableWord 32 p.1 = some p.2 := by decide

/-- Whether a word is refused for a reserved field, and whether it is no instruction. -/
def refusal : Decoded → Bool × Bool
  | .instr _ => (false, false)
  | .illegal => (false, true)
  | .altImmediate => (false, true)
  | .reserved => (true, false)

/-- Reserved bits of each kind are refused (spec/30_encoding.md R214), and unassigned codes trap (R213). -/
theorem test_decode_refused :
    [0x80020029, 0x952A2021, 0xB1D02003, 0x91D02083, 0x83902002, 0x81403000, 0x83482000].map
      (fun w => refusal (decode Config.reference (BitVec.ofNat 32 w))) = List.replicate 7 (true, false)
    ∧ [0x00400000, 0xC0400000, 0xC1C00000, 0xD0806000].map
      (fun w => refusal (decode Config.reference (BitVec.ofNat 32 w))) = List.replicate 4 (false, true) := by decide

/-! ## Well-formedness: an ill-formed term per check -/

def noOptions : Config := { Config.reference with divs := false, scan := false, mac := false, pwrpsr := false }

theorem test_illFormed_options : ∀ i ∈ ([.divscc 1#5 2#5 (.reg 3#5), .scan 1#5 2#5 (.reg 3#5), .umac 1#5 2#5 (.reg 3#5),
    .umaccc 1#5 2#5 (.reg 3#5), .smac 1#5 2#5 (.reg 3#5), .smaccc 1#5 2#5 (.reg 3#5), .wrpsr 1#5 2#5 (.reg 3#5)] : List Instr),
    i.wellFormed noOptions = false ∧ i.wellFormed Config.reference = true := by decide

theorem test_illFormed_fields : ∀ i ∈ ([.rdasr 1#5 0#5, .rdasr 0#5 15#5, .wrasr 0#5 1#5 (.imm 0#13)] : List Instr),
    i.wellFormed Config.reference = false := by decide

/-! ## One step of each instruction -/

/-- The reference machine with traps enabled, r[1] = `a`, r[2] = `b`, and the condition codes N Z V C as four bits. -/
def sample (a b y : Word) (icc : BitVec 4) : State :=
  { State.reset with
    globals := #v[0#32, a, b, 0#32, 0#32, 0#32, 0#32, 0#32], y := y, et := true, tba := 0x40000#20
    n := icc.getLsbD 3, z := icc.getLsbD 2, v := icc.getLsbD 1, c := icc.getLsbD 0
    pc := 0x1000#32, npc := 0x1004#32 }

/-- What an instruction leaves in a part of the state, if it runs. -/
def after {α : Type} (i : Instr) (s : State) (f : State → α) : Option α :=
  match exec i s with
  | .next t => some (f t)
  | .fault _ => none
  | .refused _ => none

/-- The condition codes. -/
def codes (s : State) : BitVec 4 :=
  BitVec.ofBool s.n ++ BitVec.ofBool s.z ++ BitVec.ofBool s.v ++ BitVec.ofBool s.c

/-- Rows of: an instruction with operands in r[1] and r[2], r[1], r[2], Y and the condition codes before, r[3], Y and the
condition codes after. -/
def runs (rows : List (Instr × Word × Word × Word × BitVec 4 × Word × Word × BitVec 4)) : Bool :=
  rows.all fun (i, a, b, y, icc, r, y', icc') =>
    decide (after i (sample a b y icc) (fun t => (t.reg 3#5, t.y, codes t)) = some (r, y', icc'))

/-- spec/96_test_vectors_derived.md 2.6. -/
theorem test_addSubtract : runs [
    (.add 3#5 1#5 (.reg 2#5), 0x7FFFFFFF#32, 0x1#32, 0x7#32, 0b0000#4, 0x80000000#32, 0x7#32, 0b0000#4),
    (.addcc 3#5 1#5 (.reg 2#5), 0x80000000#32, 0x80000000#32, 0x7#32, 0b0000#4, 0x0#32, 0x7#32, 0b0111#4),
    (.addcc 3#5 1#5 (.imm 0x1FFF#13), 0x5#32, 0x0#32, 0x7#32, 0b0000#4, 0x4#32, 0x7#32, 0b0001#4),
    (.addx 3#5 1#5 (.reg 2#5), 0x1#32, 0x2#32, 0x7#32, 0b0001#4, 0x4#32, 0x7#32, 0b0001#4),
    (.addxcc 3#5 1#5 (.reg 2#5), 0x7FFFFFFF#32, 0x0#32, 0x7#32, 0b0001#4, 0x80000000#32, 0x7#32, 0b1010#4),
    (.addxcc 3#5 1#5 (.reg 2#5), 0xFFFFFFFF#32, 0xFFFFFFFF#32, 0x7#32, 0b0001#4, 0xFFFFFFFF#32, 0x7#32, 0b1001#4),
    (.sub 3#5 1#5 (.reg 2#5), 0x3#32, 0x5#32, 0x7#32, 0b0000#4, 0xFFFFFFFE#32, 0x7#32, 0b0000#4),
    (.subcc 3#5 1#5 (.reg 2#5), 0x1#32, 0x80000000#32, 0x7#32, 0b0000#4, 0x80000001#32, 0x7#32, 0b1011#4),
    (.subcc 3#5 1#5 (.reg 2#5), 0x0#32, 0xFFFFFFFF#32, 0x7#32, 0b0000#4, 0x1#32, 0x7#32, 0b0001#4),
    (.subx 3#5 1#5 (.reg 2#5), 0x5#32, 0x3#32, 0x7#32, 0b0001#4, 0x1#32, 0x7#32, 0b0001#4),
    (.subxcc 3#5 1#5 (.reg 2#5), 0x0#32, 0x0#32, 0x7#32, 0b0001#4, 0xFFFFFFFF#32, 0x7#32, 0b1001#4),
    (.subxcc 3#5 1#5 (.reg 2#5), 0x80000000#32, 0x0#32, 0x7#32, 0b0001#4, 0x7FFFFFFF#32, 0x7#32, 0b0010#4)] = true := by decide

/-- spec/96_test_vectors_derived.md 2.6. -/
theorem test_logical : runs [
    (.and 3#5 1#5 (.reg 2#5), 0xF0F0F0F0#32, 0xFF00FF00#32, 0x7#32, 0b0000#4, 0xF000F000#32, 0x7#32, 0b0000#4),
    (.andcc 3#5 1#5 (.reg 2#5), 0xF0F0F0F0#32, 0xF0F0F0F#32, 0x7#32, 0b1011#4, 0x0#32, 0x7#32, 0b0100#4),
    (.andn 3#5 1#5 (.reg 2#5), 0xF0F0F0F0#32, 0xFF00FF00#32, 0x7#32, 0b0000#4, 0xF000F0#32, 0x7#32, 0b0000#4),
    (.andncc 3#5 1#5 (.reg 2#5), 0xFFFFFFFF#32, 0x7FFFFFFF#32, 0x7#32, 0b0000#4, 0x80000000#32, 0x7#32, 0b1000#4),
    (.or 3#5 1#5 (.reg 2#5), 0xF0F0F0F0#32, 0xFFFF#32, 0x7#32, 0b0000#4, 0xF0F0FFFF#32, 0x7#32, 0b0000#4),
    (.orcc 3#5 1#5 (.reg 2#5), 0x0#32, 0x0#32, 0x7#32, 0b1011#4, 0x0#32, 0x7#32, 0b0100#4),
    (.orn 3#5 1#5 (.reg 2#5), 0xF#32, 0xFFFFFF00#32, 0x7#32, 0b0000#4, 0xFF#32, 0x7#32, 0b0000#4),
    (.orncc 3#5 1#5 (.reg 2#5), 0x0#32, 0x0#32, 0x7#32, 0b0000#4, 0xFFFFFFFF#32, 0x7#32, 0b1000#4),
    (.xor 3#5 1#5 (.imm 0x1000#13), 0x0#32, 0x0#32, 0x7#32, 0b0000#4, 0xFFFFF000#32, 0x7#32, 0b0000#4),
    (.xorcc 3#5 1#5 (.reg 2#5), 0x12345678#32, 0x12345678#32, 0x7#32, 0b0000#4, 0x0#32, 0x7#32, 0b0100#4),
    (.xnor 3#5 1#5 (.reg 2#5), 0xAAAAAAAA#32, 0xAAAAAAAA#32, 0x7#32, 0b0000#4, 0xFFFFFFFF#32, 0x7#32, 0b0000#4),
    (.xnorcc 3#5 1#5 (.reg 2#5), 0xAAAAAAAA#32, 0x55555555#32, 0x7#32, 0b0011#4, 0x0#32, 0x7#32, 0b0100#4)] = true := by decide

/-- spec/96_test_vectors_derived.md 2.6: only the low five bits of a count are used. -/
theorem test_shifts : runs [
    (.sll 3#5 1#5 (.imm 31#5), 0x80000001#32, 0x0#32, 0x7#32, 0b0110#4, 0x80000000#32, 0x7#32, 0b0110#4),
    (.sll 3#5 1#5 (.reg 2#5), 0x80000001#32, 0xFFFFFFE4#32, 0x7#32, 0b0000#4, 0x10#32, 0x7#32, 0b0000#4),
    (.srl 3#5 1#5 (.imm 1#5), 0x80000001#32, 0x0#32, 0x7#32, 0b0110#4, 0x40000000#32, 0x7#32, 0b0110#4),
    (.srl 3#5 1#5 (.reg 2#5), 0x80000001#32, 0x21#32, 0x7#32, 0b0000#4, 0x40000000#32, 0x7#32, 0b0000#4),
    (.sra 3#5 1#5 (.imm 31#5), 0x80000001#32, 0x0#32, 0x7#32, 0b0110#4, 0xFFFFFFFF#32, 0x7#32, 0b0110#4),
    (.sra 3#5 1#5 (.reg 2#5), 0x80000000#32, 0x24#32, 0x7#32, 0b0000#4, 0xF8000000#32, 0x7#32, 0b0000#4)] = true := by decide

/-- spec/45_v8_base_alu.md R364. -/
theorem test_sethi : after (.sethi 5#5 0x3FE000#22) State.reset (fun t => t.reg 5#5) = some 0xFF800000#32 := by decide

/-- spec/96_test_vectors_derived.md 2.7. -/
theorem test_tagged_multiplyStep : runs [
    (.taddcc 3#5 1#5 (.reg 2#5), 0x4#32, 0x8#32, 0x7#32, 0b0000#4, 0xC#32, 0x7#32, 0b0000#4),
    (.taddcc 3#5 1#5 (.reg 2#5), 0x5#32, 0x8#32, 0x7#32, 0b0000#4, 0xD#32, 0x7#32, 0b0010#4),
    (.tsubcc 3#5 1#5 (.reg 2#5), 0xC#32, 0x3#32, 0x7#32, 0b0000#4, 0x9#32, 0x7#32, 0b0010#4),
    (.tsubcc 3#5 1#5 (.reg 2#5), 0x4#32, 0x8#32, 0x7#32, 0b0000#4, 0xFFFFFFFC#32, 0x7#32, 0b1001#4),
    (.taddccTV 3#5 1#5 (.reg 2#5), 0x4#32, 0x8#32, 0x7#32, 0b1111#4, 0xC#32, 0x7#32, 0b0000#4),
    (.tsubccTV 3#5 1#5 (.reg 2#5), 0xC#32, 0x4#32, 0x7#32, 0b1111#4, 0x8#32, 0x7#32, 0b0000#4),
    (.mulscc 3#5 1#5 (.reg 2#5), 0x6#32, 0x5#32, 0x1#32, 0b0000#4, 0x8#32, 0x0#32, 0b0000#4),
    (.mulscc 3#5 1#5 (.reg 2#5), 0x80000000#32, 0x80000000#32, 0xFFFFFFFF#32, 0b0010#4, 0x40000000#32, 0x7FFFFFFF#32, 0b0011#4)] = true := by decide

/-- spec/96_test_vectors_derived.md 2.7. -/
theorem test_multiply_divide : runs [
    (.umul 3#5 1#5 (.reg 2#5), 0xFFFFFFFF#32, 0xFFFFFFFF#32, 0x0#32, 0b0000#4, 0x1#32, 0xFFFFFFFE#32, 0b0000#4),
    (.umulcc 3#5 1#5 (.reg 2#5), 0x10000#32, 0x10000#32, 0x0#32, 0b1011#4, 0x0#32, 0x1#32, 0b0100#4),
    (.smul 3#5 1#5 (.reg 2#5), 0xFFFFFFFE#32, 0x3#32, 0x0#32, 0b0000#4, 0xFFFFFFFA#32, 0xFFFFFFFF#32, 0b0000#4),
    (.smulcc 3#5 1#5 (.reg 2#5), 0xFFFFFFFF#32, 0x1#32, 0x0#32, 0b0000#4, 0xFFFFFFFF#32, 0xFFFFFFFF#32, 0b1000#4),
    (.udiv 3#5 1#5 (.reg 2#5), 0x0#32, 0x2#32, 0x1#32, 0b0000#4, 0x80000000#32, 0x1#32, 0b0000#4),
    (.udivcc 3#5 1#5 (.reg 2#5), 0x0#32, 0x1#32, 0x1#32, 0b0000#4, 0xFFFFFFFF#32, 0x1#32, 0b1010#4),
    (.sdiv 3#5 1#5 (.reg 2#5), 0xFFFFFFF9#32, 0x2#32, 0xFFFFFFFF#32, 0b0000#4, 0xFFFFFFFD#32, 0xFFFFFFFF#32, 0b0000#4),
    (.sdivcc 3#5 1#5 (.reg 2#5), 0x80000000#32, 0xFFFFFFFF#32, 0xFFFFFFFF#32, 0b0000#4, 0x7FFFFFFF#32, 0xFFFFFFFF#32, 0b0010#4),
    (.sdivcc 3#5 1#5 (.reg 2#5), 0x0#32, 0x1#32, 0x80000000#32, 0b0000#4, 0x80000000#32, 0x80000000#32, 0b1010#4)] = true := by decide

/-- spec/96_test_vectors_derived.md 2.1 and 2.2. -/
theorem test_divideStep_scan : runs [
    (.divscc 3#5 1#5 (.reg 2#5), 0x80000000#32, 0x3#32, 0x0#32, 0b0000#4, 0x0#32, 0xFFFFFFFE#32, 0b1000#4),
    (.divscc 3#5 1#5 (.reg 2#5), 0xFFFFFFFF#32, 0x1#32, 0x7FFFFFFF#32, 0b0000#4, 0xFFFFFFFF#32, 0xFFFFFFFE#32, 0b1011#4),
    (.scan 3#5 1#5 (.imm 0x1FFF#13), 0xFFFF0000#32, 0x0#32, 0x7#32, 0b1010#4, 0x10#32, 0x7#32, 0b1010#4),
    (.scan 3#5 1#5 (.reg 2#5), 0xFFFFF000#32, 0xFFFFF000#32, 0x7#32, 0b1010#4, 0x14#32, 0x7#32, 0b1010#4)] = true := by decide

/-- spec/42_mac.md R271 to R274: the accumulator, r[3], the accrued flags and the condition codes. -/
theorem test_multiplyAccumulate :
    let s := fun (a b h y l : Word) => { sample a b y 0b0000#4 with accHi := h, accLo := l }
    let f := fun t : State => ([t.accHi, t.y, t.accLo, t.reg 3#5], t.accOverflow, t.accCarry, codes t)
    after (.umac 3#5 1#5 (.reg 2#5)) (s 2#32 3#32 0#32 0#32 0xFFFFFFFF#32) f
      = some ([0#32, 1#32, 5#32, 5#32], false, false, 0b0000#4)
    ∧ after (.umaccc 3#5 1#5 (.reg 2#5)) (s 1#32 1#32 0xFF#32 0xFFFFFFFF#32 0xFFFFFFFF#32) f
      = some ([0#32, 0#32, 0#32, 0#32], false, true, 0b0101#4)
    ∧ after (.smac 3#5 1#5 (.reg 2#5)) (s 0xFFFFFFFF#32 1#32 0#32 0#32 0#32) f
      = some ([0xFF#32, 0xFFFFFFFF#32, 0xFFFFFFFF#32, 0xFFFFFFFF#32], false, false, 0b0000#4)
    ∧ after (.smaccc 3#5 1#5 (.reg 2#5)) (s 1#32 1#32 0x7F#32 0xFFFFFFFF#32 0xFFFFFFFF#32) f
      = some ([0x80#32, 0#32, 0#32, 0#32], true, false, 0b0110#4) := by decide

/-- The instructions of a list whose effect on pc and npc is that of a taken branch. -/
def taken (is : List Instr) (icc : BitVec 4) : List Bool :=
  is.map fun i => decide (after i (sample 0#32 0#32 0#32 icc) (fun t => (t.pc, t.npc)) = some (0x1004#32, 0x1010#32))

/-- Two rows of the table of spec/46_v8_base_control.md R436: after comparing 0x80000000 with 1, and 1 with 0x80000000. -/
theorem test_branches :
    let d := 4#22
    let is : List Instr := [.ba false d, .bne false d, .ble false d, .bl false d, .bgu false d, .bcc false d, .bpos false d,
      .bvs false d, .bn false d, .be false d, .bg false d, .bge false d, .bleu false d, .bcs false d, .bneg false d, .bvc false d]
    taken is 0b0010#4 = [true, true, true, true, true, true, true, true,
      false, false, false, false, false, false, false, false]
    ∧ taken is 0b1011#4 = [true, true, false, false, false, false, false, true,
      false, false, true, true, true, true, true, false] := by decide

/-- Annulment (spec/96_test_vectors_derived.md 2.8): ba,a; bn,a; be,a not taken; and a branch backward. -/
theorem test_annul :
    let f := fun t : State => (t.pc, t.npc)
    let s := sample 0#32 0#32 0#32 0b0000#4
    after (.ba true 4#22) s f = some (0x1010#32, 0x1014#32)
    ∧ after (.bn true 4#22) s f = some (0x1008#32, 0x100C#32)
    ∧ after (.be true 4#22) s f = some (0x1008#32, 0x100C#32)
    ∧ after (.bne false 0x3FFFFC#22) s f = some (0x1004#32, 0x0FF0#32) := by decide

/-- spec/96_test_vectors_derived.md 2.8: CALL backward, and a JMPL whose source is its destination. -/
theorem test_call_jump :
    let s := sample 0x2000#32 0x100#32 0#32 0b0000#4
    after (.call 0x3FFFFE00#30) s (fun t => (t.pc, t.npc, t.reg 15#5)) = some (0x1004#32, 0x800#32, 0x1000#32)
    ∧ after (.jmpl 1#5 1#5 (.reg 2#5)) s (fun t => (t.pc, t.npc, t.reg 1#5)) = some (0x1004#32, 0x2100#32, 0x1000#32) := by
  decide

/-- What a trap at 0x1000 leaves: pc, npc, tt, CWP, S, ET, and r[17] and r[18] of the new window. -/
def trapped (t : State) : List Word × BitVec 8 × BitVec 5 × Bool × Bool :=
  ([t.pc, t.npc, t.reg 17#5, t.reg 18#5], t.tt, t.cwp, t.sup, t.et)

/-- spec/96_test_vectors_derived.md 2.12: the vector of each trap type, and error mode with ET = 0. -/
theorem test_traps :
    let s := { sample 2#32 1#32 0#32 0b0000#4 with cwp := 3#5, svt := false }
    let at_ := fun tt : BitVec 8 => some ([0x40000#20 ++ tt ++ 0#4, (0x40000#20 ++ tt ++ 0#4) + 4#32,
      0x1000#32, 0x1004#32], tt, 2#5, true, false)
    (∀ p ∈ ([(.unimp 0#5 0#22, 0x02#8), (.fpop1 0#5 0#5 0#9 0#5, 0x04#8), (.cpop2 0#5 0#5 0#9 0#5, 0x24#8),
        (.ldf 1#5 1#5 (.imm 1#13), 0x04#8), (.stdcq 1#5 1#5 (.imm 1#13), 0x24#8), (.ld 3#5 1#5 (.imm 0#13), 0x07#8),
        (.taddccTV 3#5 1#5 (.reg 2#5), 0x0A#8), (.udiv 3#5 1#5 (.imm 0#13), 0x2A#8), (.ta 0#5 (.imm 127#7), 0xFF#8),
        (.rett 1#5 (.imm 0#13), 0x02#8), (.ldd 3#5 1#5 (.imm 0#13), 0x02#8), (.rdasr 1#5 1#5, 0x02#8)] : List (Instr × BitVec 8)),
      after p.1 s trapped = at_ p.2)
    ∧ after (.ta 0#5 (.imm 127#7)) { s with et := false } (fun t => (t.errorMode, t.tt, t.pc)) = some (true, 0xFF#8, 0x1000#32) := by
  decide

/-- spec/46_v8_base_control.md R407: te with r[1] = 0x17F and r[2] = 2 is trap 1; tne with Z = 1 is not taken. -/
theorem test_ticc :
    let s := sample 0x17F#32 2#32 0#32 0b0100#4
    after (.te 1#5 (.reg 2#5)) s (fun t => t.tt) = some 0x81#8
    ∧ after (.tne 0#5 (.imm 3#7)) s (fun t => (t.pc, t.npc)) = some (0x1004#32, 0x1008#32) := by decide

/-- spec/96_test_vectors_derived.md 2.9: SAVE and RESTORE read the old window and write the new one, and overflow. -/
theorem test_windows :
    let s := { sample 0#32 0#32 0#32 0b0000#4 with wim := 1#32 }
    let high := ({ s with cwp := 3#5 }).setReg 14#5 0x8000#32
    after (.save 14#5 14#5 (.imm 0x1FA0#13)) high (fun t => (t.cwp, t.reg 14#5, t.reg 30#5)) = some (2#5, 0x7FA0#32, 0x8000#32)
    ∧ after (.restore 8#5 8#5 (.imm 1#13)) (({ s with cwp := 2#5 }).setReg 8#5 41#32) (fun t => (t.cwp, t.reg 8#5))
      = some (3#5, 42#32)
    ∧ after (.save 14#5 14#5 (.imm 0x1FA0#13)) { s with cwp := 1#5 } trapped
      = some ([0x40000050#32, 0x40000054#32, 0x1000#32, 0x1004#32], 0x05#8, 0#5, true, false) := by
  decide

/-- spec/46_v8_base_control.md R406: the second half of `jmpl %l1,%g0; rett %l2`. -/
theorem test_rett :
    let s := { sample 0#32 0#32 0#32 0b0000#4 with cwp := 2#5, wim := 1#32, et := false, npc := 0x4000#32, paw := true }
    after (.rett 18#5 (.reg 0#5)) (s.setReg 18#5 0x4004#32) (fun t => (t.pc, t.npc, t.cwp, t.sup, t.et, t.aw))
      = some (0x4000#32, 0x4004#32, 3#5, false, true, true) := by decide

/-- spec/96_test_vectors_derived.md 2.11: reads of the state registers. -/
theorem test_readState :
    let s := { sample 0#32 0#32 0x12345678#32 0b1001#4 with et := false, pil := 5#4, cwp := 2#5, tt := 0x83#8, wim := 0xAA#32, svt := true }
    let f := fun t : State => t.reg 1#5
    after (.rdy 1#5) { s with sup := false } f = some 0x12345678#32
    ∧ after (.rdpsr 1#5) s f = some 0x00900582#32
    ∧ after (.rdtbr 1#5) s f = some 0x40000830#32
    ∧ after (.rdwim 1#5) s f = some 0xAA#32
    ∧ after (.rdasr 1#5 17#5) s f = some 1#32
    ∧ after .stbar s (fun t => (t.pc, t.npc)) = some (0x1004#32, 0x1008#32) := by decide

/-- spec/96_test_vectors_derived.md 2.4 and 2.11: writes of the state registers, exclusive-or included. -/
theorem test_writeState :
    let s := { sample 0xFFFFFF00#32 0xFFFFFFE7#32 0#32 0b0000#4 with pil := 3#4, cwp := 2#5 }
    after (.wry 1#5 (.imm 0xFF#13)) { s with sup := false } (fun t => t.y) = some 0xFFFFFFFF#32
    ∧ after (.wrwim 0#5 (.imm 0x1FFF#13)) s (fun t => t.wim) = some 0xFF#32
    ∧ after (.wrtbr 1#5 (.imm 0#13)) s (fun t => t.tbr) = some 0xFFFFF000#32
    ∧ after (.wrasr 17#5 0#5 (.imm 0x1FFF#13)) s (fun t => t.svt) = some true
    ∧ after (.wrpsr 0#5 2#5 (.imm 0#13)) s (fun t => (t.psr &&& 0xFF3FFF#32)) = some 0x00F00FE7#32
    ∧ after (.wrpsr 1#5 2#5 (.imm 0x20#13)) s (fun t => (t.et, t.cwp, t.pil)) = some (false, 2#5, 3#4) := by decide

/-- Bytes at 0x2000 of spec/96_test_vectors_derived.md 2.10, with r[1] = 0x2000 and r[2] = 0xAABBCCDD. -/
def loaded : State :=
  (((sample 0x2000#32 0xAABBCCDD#32 0#32 0b0000#4).placeWord 0x2000 0x8091A2B3#32).placeWord 0x2004 0xC4D5E6F7#32)

/-- spec/96_test_vectors_derived.md 2.10, and the same through ASI 0x0B (spec/44_alternate_space.md R312 to R317). -/
theorem test_loads :
    let f := fun t : State => (t.reg 4#5, t.reg 5#5)
    (∀ p ∈ ([(.ldsb 4#5 1#5 (.imm 1#13), 0xFFFFFF91#32), (.ldub 4#5 1#5 (.imm 1#13), 0x91#32),
        (.ldsh 4#5 1#5 (.imm 2#13), 0xFFFFA2B3#32), (.lduh 4#5 1#5 (.imm 2#13), 0xA2B3#32),
        (.ld 4#5 1#5 (.imm 4#13), 0xC4D5E6F7#32), (.ldsba 4#5 1#5 0x0B#8 0#5, 0xFFFFFF80#32),
        (.lduba 4#5 1#5 0x0B#8 0#5, 0x80#32), (.ldsha 4#5 1#5 0x0B#8 0#5, 0xFFFF8091#32),
        (.lduha 4#5 1#5 0x0B#8 0#5, 0x8091#32), (.lda 4#5 1#5 0x0B#8 0#5, 0x8091A2B3#32)] : List (Instr × Word)),
      after p.1 loaded f = some (p.2, 0#32))
    ∧ after (.ldd 4#5 1#5 (.imm 0#13)) loaded f = some (0x8091A2B3#32, 0xC4D5E6F7#32)
    ∧ after (.ldda 4#5 1#5 0x0B#8 0#5) loaded f = some (0x8091A2B3#32, 0xC4D5E6F7#32) := by decide

/-- spec/96_test_vectors_derived.md 2.10, and the same through ASI 0x0B (spec/44_alternate_space.md R318 to R325). -/
theorem test_stores :
    let f := fun t : State => (t.wordAt 0x2000, t.wordAt 0x2004)
    let s := loaded.setReg 3#5 0x11223344#32
    (∀ p ∈ ([(.stb 2#5 1#5 (.imm 1#13), 0x80DDA2B3#32), (.sth 2#5 1#5 (.imm 2#13), 0x8091CCDD#32),
        (.st 2#5 1#5 (.imm 0#13), 0xAABBCCDD#32), (.stba 2#5 1#5 0x0B#8 0#5, 0xDD91A2B3#32),
        (.stha 2#5 1#5 0x0B#8 0#5, 0xCCDDA2B3#32), (.sta 2#5 1#5 0x0B#8 0#5, 0xAABBCCDD#32),
        (.ldstub 2#5 1#5 (.imm 3#13), 0x8091A2FF#32), (.ldstuba 2#5 1#5 0x0B#8 0#5, 0xFF91A2B3#32),
        (.swap 2#5 1#5 (.imm 0#13), 0xAABBCCDD#32), (.swapa 2#5 1#5 0x0B#8 0#5, 0xAABBCCDD#32)] : List (Instr × Word)),
      after p.1 s f = some (p.2, 0xC4D5E6F7#32))
    ∧ after (.std 2#5 1#5 (.imm 0#13)) s f = some (0xAABBCCDD#32, 0x11223344#32)
    ∧ after (.stda 2#5 1#5 0x0B#8 0#5) s f = some (0xAABBCCDD#32, 0x11223344#32)
    ∧ after (.swap 2#5 1#5 (.imm 4#13)) s (fun t => t.reg 2#5) = some 0xC4D5E6F7#32
    ∧ after (.ldstub 2#5 1#5 (.imm 3#13)) s (fun t => t.reg 2#5) = some 0xB3#32 := by decide

/-- spec/48_v8_base_system.md R491: FLUSH does not trap on a misaligned address and forgets a stored doubleword. -/
theorem test_flush : after (.flush 1#5 (.imm 3#13)) { loaded with stale := [0x2004, 0x2008] } (fun t => (t.stale, t.pc))
    = some ([0x2008], 0x1004#32) := by decide

/-- The first step after reset runs the word placed where it fetches. -/
theorem test_fetch : (match step (State.reset.withFetchWord 32 0x11000008) with
    | .next t => some (t.reg 8#5, t.pc)
    | .fault _ => none
    | .refused _ => none) = some (0x2000#32, 4#32) := by decide

/-- spec/60_exceptions.md R597: with P = 1 the samples 1, 1, 0, 1 latch at the fourth tick; a line high from reset never. -/
theorem test_edge :
    let ticks := fun ls : List (BitVec 16) => ls.foldl (fun u l => u.sample Config.reference true l)
      ((Iirc.reset Config.reference).store true 0x04 0x8#32)
    (ticks [2#16, 2#16, 0#16]).irqLatch = 0#16 ∧ (ticks [2#16, 2#16, 0#16, 2#16]).irqLatch = 2#16
    ∧ (ticks [2#16, 2#16, 2#16, 2#16]).irqLatch = 0#16 := by decide

/-- spec/61_timers_dsu.md R641, Table 12: in mode 1 a load of Count resets Out in every phase. -/
theorem test_readCount :
    let t := { Timer.reset Config.reference with control := { TimerControl.reset with mode := 1#3 }, o := true, cnt := 5#32 }
    (match t.load Config.reference ⟨0, true, true, true, true⟩ 12 false with
      | .ok (v, u) => some (v, u.out, u.phase)
      | .error _ => none) = some (5#32, false, .stopped) := by decide

/-- spec/61_timers_dsu.md R605: zero stored to SCALER.set of a running generator is no refusal (log 28). -/
theorem test_zeroWhileRunning :
    let p := { Ppg.reset with sRun := true, cRun := true, scalerCnt := 2#32, scalerSet := 2#32, counterCnt := 2#32 }
    (match p.store Config.reference 8 0#32 with
      | .ok q => some ((q.countPulse Config.reference (7#32, 7#32) true).scalerCnt, q.scalerSet)
      | .error _ => none) = some (1#32, 0#32) := by decide

/-- spec/20_memory.md R158: a flush of the page of a held entry removes it, one of another page does not. -/
theorem test_flush_probe :
    let s := { State.reset with
      cfg := { Config.reference with mmu := .v8ref }, tlb := [⟨0x0000051F#32, 0x00002002#32, false⟩] }
    registerAt s.cfg 0x03#8 0x2000#32 = some (.flushProbe 0x2000#32)
    ∧ (s.flushTlb 0x2000#32).tlbHits 0x2004#32 = [] ∧ (s.flushTlb 0x3000#32).tlbHits 0x2004#32 = [0]
    ∧ (s.flushTlb 0x400#32).tlbHits 0x2004#32 = [] := by decide

/-- spec/20_memory.md R158: a probe finds what the TLB holds, with ET = 2, whatever the tables say; 0 below a held level. -/
theorem test_probe_held :
    let s := { State.reset with
      cfg := { Config.reference with mmu := .v8ref }, tlb := [⟨0x0000051F#32, 0x00002002#32, false⟩] }
    let large := { s with tlb := [⟨0x0000051D#32, 0x00002002#32, false⟩] }
    readProbe s 0x2000#32 = .ok 0x51E#32 s ∧ readProbe s 0x2400#32 = .ok 0x51E#32 s ∧ readProbe s 0x3000#32 = .ok 0#32 s
    ∧ readProbe large 0x2000#32 = .ok 0#32 large ∧ readProbe large 0x2200#32 = .ok 0x51E#32 large :=
  ⟨rfl, rfl, rfl, rfl, rfl⟩

/-! ## The hypotheses of the statements can be met -/

theorem test_met_DecodeOfEncode : Config.reference.coreWf = true ∧ (Instr.wrpsr 31#5 2#5 (.reg 3#5)).wellFormed Config.reference = true
    ∧ (Instr.rdasr 1#5 31#5).wellFormed Config.reference = true := by decide

theorem test_met_EncodeOfDecode : Config.reference.coreWf = true
    ∧ decode Config.reference 0x92EA400A#32 = .instr (.divscc 9#5 9#5 (.reg 10#5)) := by decide

theorem test_met_SpecWordsDecode : Config.reference.divs = true ∧ Config.reference.scan = true
    ∧ Config.reference.coreWf = true ∧ Config.reference.mac = true := by decide

/-- A word for each clause, its first and last code. -/
theorem test_met_UndefinedWordsTrap :
    let op := fun w : Nat => w / 2 ^ 30
    let op3 := fun w : Nat => w / 2 ^ 19 % 64
    Config.reference.coreWf = true ∧ noOptions.coreWf = true
    ∧ [0x00400000, 0x00C00000, 0x01400000].map (fun w => (op w, w / 2 ^ 22 % 8)) = [(0, 1), (0, 3), (0, 5)]
    ∧ (op 0x80E80000, op3 0x80E80000, noOptions.divs) = (2, 0x1D, false)
    ∧ (op 0x81600000, op3 0x81600000, noOptions.scan) = (2, 0x2C, false)
    ∧ (op 0x80480000, op3 0x80480000, noOptions.mac) = (2, 0x09, false)
    ∧ (op 0x81F80000, op3 0x81F80000, noOptions.mac) = (2, 0x3F, false)
    ∧ 0x09 ∉ [Config.reference.umacOp3.toNat, Config.reference.umacccOp3.toNat, Config.reference.smacOp3.toNat,
        Config.reference.smacccOp3.toNat]
    ∧ [0xC0400000, 0xC1900000, 0xC1400000, 0xC1780000, 0xC1C00000, 0xC1F80000].map (fun w => (op w, op3 w))
      = [(3, 0x08), (3, 0x32), (3, 0x28), (3, 0x2F), (3, 0x38), (3, 0x3F)]
    ∧ (op 0xC0802000, op3 0xC0802000, (0xC0802000#32).getLsbD 13) = (3, 0x10, true)
    ∧ (op 0xC0FFFFFF, op3 0xC0FFFFFF, (0xC0FFFFFF#32).getLsbD 13) = (3, 0x1F, true) := by decide

theorem test_met_GlobalRegisters :
    (7#5).toNat < 8 ∧ (0 < (1#5).toNat ∧ (1#5).toNat < 8) ∧ (0 < (7#5).toNat ∧ (7#5).toNat < 8)
    ∧ (8 ≤ (8#5).toNat ∧ 2 ≤ State.reset.cfg.nwindows ∧ State.reset.cfg.nwindows ≤ 32 ∧ 0 < State.reset.cfg.nwindows
        ∧ 7 < State.reset.cfg.nwindows ∧ 0 ≠ 7)
    ∧ (8 ≤ (31#5).toNat) := by decide

/-- The first and the last register and window of each clause; entry 0 and entry 127 are the ends of W. -/
theorem test_met_WindowLayout :
    2 ≤ State.reset.cfg.nwindows ∧ State.reset.cfg.nwindows ≤ 32 ∧ 0 < State.reset.cfg.nwindows ∧ 7 < State.reset.cfg.nwindows
    ∧ (0#5).toNat = (0 : Fin 8).val ∧ (7#5).toNat = (7 : Fin 8).val
    ∧ (8 ≤ (8#5).toNat ∧ (15#5).toNat ≤ 15 ∧ (0 : Fin 512).val = (16 * 0 + ((8#5).toNat - 8)) % (16 * State.reset.cfg.nwindows))
    ∧ (16 ≤ (16#5).toNat ∧ (23#5).toNat ≤ 23
        ∧ (127 : Fin 512).val = (16 * 7 + 8 + ((23#5).toNat - 16)) % (16 * State.reset.cfg.nwindows))
    ∧ (24 ≤ (24#5).toNat ∧ (0 : Fin 512).val = (16 * (7 + 1) + ((24#5).toNat - 24)) % (16 * State.reset.cfg.nwindows)
        ∧ (24 ≤ (31#5).toNat)) := by decide

/-- Each of the two trapping forms with and without V. -/
theorem test_met_TaggedArithmetic :
    let s := sample 4#32 8#32 0#32 0b0000#4
    (orTag (afterSum s 4#32 8#32 false) 4#32 8#32).v = false ∧ (orTag (afterSum s 5#32 8#32 false) 5#32 8#32).v = true
    ∧ (orTag (afterSum s 0x7FFFFFFC#32 4#32 false) 0x7FFFFFFC#32 4#32).v = true
    ∧ (orTag (afterDifference s 4#32 8#32 false) 4#32 8#32).v = false
    ∧ (orTag (afterDifference s 12#32 3#32 false) 12#32 3#32).v = true := by decide

theorem test_met_Divide : operand2 (sample 1#32 2#32 0#32 0b0000#4) (.reg 2#5) ≠ 0#32
    ∧ operand2 State.reset (.imm 0#13) = 0#32 := by decide

theorem test_met_MultiplyAccumulate : State.reset.cfg.accHiWidth ≤ 32
    ∧ ({ Config.reference with accHiWidth := 32 }).accHiWidth ≤ 32 ∧ ({ Config.reference with accHiWidth := 0 }).accHiWidth ≤ 32 := by
  decide

theorem test_met_BranchInstructions : State.reset.condDelay = false := by decide

theorem test_met_CallAndJump : State.reset.condDelay = false
    ∧ (effectiveAddress State.reset 0#5 (.imm 4#13)).toNat % 4 = 0 ∧ (effectiveAddress State.reset 0#5 (.imm 2#13)).toNat % 4 ≠ 0
    ∧ (effectiveAddress State.reset 0#5 (.imm 0x1FFF#13)).toNat % 4 ≠ 0 := by decide

/-- One state and one target for each of the six clauses. -/
theorem test_met_ReturnFromTrap :
    let s := State.reset
    let full := { s with wim := 2#32 }
    s.condDelay = false ∧ s.cwp.toNat < s.cfg.nwindows ∧ s.cfg.nwindows ≤ 32
    ∧ (s.et = false ∧ s.sup = true ∧ s.wim.getLsbD 1 = false ∧ (effectiveAddress s 0#5 (.imm 4#13)).toNat % 4 = 0)
    ∧ (({ s with et := true }).et = true ∧ s.sup = true)
    ∧ (({ s with sup := false }).sup = false ∧ s.et = false)
    ∧ (full.et = false ∧ full.sup = true ∧ full.wim.getLsbD ((full.cwp.toNat + 1) % full.cfg.nwindows) = true)
    ∧ (effectiveAddress s 0#5 (.imm 2#13)).toNat % 4 ≠ 0 := by decide

theorem test_met_RefusedForms :
    let s := sample 8#32 31#32 0#32 0b0000#4
    ({ s with condDelay := true }).condDelay = true
    ∧ (s.sup = true ∧ 2#5 ≠ 0#5 ∧ ¬ (s.cfg.pwrpsr = true ∧ 2#5 = s.cfg.wrpsrEtRd))
    ∧ (s.cfg.coreWf = true ∧ s.cfg.awp = true
        ∧ s.cfg.nwindows ≤ (s.reg 1#5 ^^^ operand2 s (.imm 0#13)).toNat / 2 ^ s.cfg.awpLsb % 32
        ∧ s.cfg.nwindows ≤ (s.reg 2#5 ^^^ operand2 s (.imm 0#13)).toNat / 2 ^ s.cfg.awpLsb % 32) := by decide

/-- A test that holds and one that does not, in one state. -/
theorem test_met_TrapOnCondition : (State.reset.z = false ∧ (!State.reset.z) = true)
    ∧ (sample 0#32 0#32 0#32 0b0100#4).z = true := by decide

/-- Both ends of the window file, valid and invalid targets, and AW = 1. -/
theorem test_met_SaveRestore :
    let s := State.reset
    let last := { s with cwp := 7#5, wim := 0x81#32 }
    (s.cwp.toNat < s.cfg.nwindows ∧ last.cwp.toNat < last.cfg.nwindows ∧ s.cfg.nwindows ≤ 32)
    ∧ (¬ (s.cfg.awp = true ∧ s.aw = true) ∧ s.wim.getLsbD ((s.cwp.toNat + s.cfg.nwindows - 1) % s.cfg.nwindows) = false)
    ∧ (¬ (last.cfg.awp = true ∧ last.aw = true) ∧ last.wim.getLsbD ((last.cwp.toNat + 1) % last.cfg.nwindows) = true)
    ∧ (s.cfg.awp = true ∧ ({ s with aw := true }).aw = true) := by decide

theorem test_met_ReadStateRegisters : State.reset.cfg.coreWf = true ∧ State.reset.sup = true := by decide

/-- The options present in either mode, and a register number that is none of them. -/
theorem test_met_ReadAncillary :
    let s := State.reset
    let user := { s with sup := false }
    s.cfg.coreWf = true ∧ s.cfg.mac = true ∧ (s.cfg.svt = true ∧ s.sup = true) ∧ (user.cfg.svt = true ∧ user.sup = false)
    ∧ (s.cfg.awp = true ∧ s.sup = true) ∧ (user.cfg.awp = true ∧ user.sup = false)
    ∧ (¬ (s.cfg.svt = true ∧ 31#5 = 17#5) ∧ ¬ (s.cfg.mac = true ∧ 31#5 ∈ [s.cfg.asrAccHi, s.cfg.asrAccLo, s.cfg.asrAccFlags])
        ∧ ¬ (s.cfg.awp = true ∧ 31#5 = s.cfg.asrAwp)) := by decide

/-- With `test_met_ReadAncillary`: the last window number that AWP may take. -/
theorem test_met_WriteAncillary :
    let s := sample 7#32 0#32 0#32 0b0000#4
    s.cfg.coreWf = true ∧ s.cfg.mac = true ∧ s.cfg.svt = true ∧ s.cfg.awp = true ∧ s.sup = true
    ∧ (s.reg 1#5 ^^^ operand2 s (.imm 0#13)).toNat / 2 ^ s.cfg.awpLsb % 32 < s.cfg.nwindows := by decide

theorem test_met_WriteStateRegisters : State.reset.cfg.nwindows ≤ 32 ∧ State.reset.sup = true := by decide

/-- CWP offered as 7, and as 8. -/
theorem test_met_WritePsr :
    let s := sample 7#32 8#32 0#32 0b0000#4
    s.sup = true ∧ s.cfg.coreWf = true ∧ (s.reg 1#5 ^^^ operand2 s (.imm 0#13)).toNat % 32 < s.cfg.nwindows
    ∧ s.cfg.nwindows ≤ (s.reg 2#5 ^^^ operand2 s (.imm 0#13)).toNat % 32
    ∧ (after (.wrpsr 0#5 1#5 (.imm 0#13)) s fun _ => true) = some true := by decide

theorem test_met_WritePsrEtOnly : State.reset.sup = true ∧ State.reset.cfg.pwrpsr = true
    ∧ State.reset.cfg.wrpsrEtRd ≠ 0#5 := by decide

/-- A user-mode state with every option; the last restricted address space, and one that is not when the option is absent. -/
theorem test_met_PrivilegedInUserMode :
    let s := { State.reset with sup := false }
    s.sup = false ∧ (0x7F#8).toNat < 0x80 ∧ ({ Config.reference with npasi := false }).npasi = false
    ∧ s.condDelay = false ∧ s.cfg.coreWf = true ∧ s.cfg.svt = true ∧ s.cfg.awp = true := by decide

/-- The MMU enabled, a software table walk, and one descriptor: the page at 0x2000 for the supervisor of context 0. -/
def mapped : State :=
  { State.reset with
    cfg := { Config.reference with tableWalk := .software, nTlb := 1 }, mmuEnable := true
    tlb := [⟨0x0000051F#32, 0x00002002#32, false⟩] }

/-- The MMU enabled with a software table walk and no valid descriptor. -/
def unmapped : State := { mapped with tlb := [⟨0#32, 0#32, false⟩] }

/-- A page, no page, and a fetch of a marked word, with and without a recorded FLUSH of it. -/
theorem test_met_Flush :
    let s := { State.reset with stale := [0], flushed := [] }
    let t := { s with flushed := [(0, 0)] }
    locate s s.pc (fetchAsi s) .fetch = .ok 0 s ∧ s.inject ≠ some .fetch ∧ fetch s = .refused .staleFetch
    ∧ locate t t.pc (fetchAsi t) .fetch = .ok 0 t ∧ fetch t = .ok 0#32 t := ⟨rfl, by decide, rfl, rfl, rfl⟩

theorem test_met_Flush_places : probe State.reset 0x2003#32 = some 0x2003 ∧ probe mapped 0x2008#32 = some 0x5008
    ∧ probe unmapped 0x2000#32 = none ∧ TranslationOff State.reset :=
  ⟨by decide, by decide, by decide, Or.inr ⟨Or.inr rfl, rfl⟩⟩

/-- The reference machine with traps enabled. -/
def ready : State := { State.reset with et := true }

/-- A hardware table walk in context 0: 0x2004 lies in the supervisor's page of the entry at 0x4008, 0x1000 has an invalid
entry, and the second entry of each table above the last is none of a table: 0x01000000 and 0x40000 lie in large pages. -/
def tabled : State :=
  ([(0x1000, 0x00000201#32), (0x2000, 0x00000301#32), (0x2004, 0x0000001E#32), (0x3000, 0x00000401#32),
    (0x3004, 0x0000001E#32), (0x4008, 0x0000051E#32), (0x400C, 0x00000001#32)] : List (Nat × Word)).foldl
    (fun s p => s.placeWord p.1 p.2)
    { State.reset with
      cfg := { Config.reference with nTlb := 1 }, mmuEnable := true, ctp := 0x40#30, tlb := [⟨0#32, 0#32, false⟩] }

/-- The same, with the page of 0x2004 held and not yet marked. -/
def held : State := { tabled with tlb := [⟨0x0000051F#32, 0x00002002#32, false⟩] }

/-- States that meet the invariant: the reference machine with traps enabled, and some with pages mapped. -/
theorem test_met_Inv : Inv ready ∧ Inv mapped ∧ Inv tabled ∧ Inv held := by
  refine ⟨?_, ?_, ?_, ?_⟩ <;> refine ⟨by decide, by decide, by decide, by decide, by decide, by decide, by decide, by decide, by decide,
    by decide, by decide, ?_, ?_, by decide, by decide⟩ <;> intro k _ <;> simp [ready, mapped, tabled, held, State.placeWord, State.reset,
      State.resetFor]

/-- Addresses aligned to 8 for both operand forms, an even register, and the privilege of the first and last address space. -/
theorem test_met_alignment :
    let ea := (effectiveAddress ready 0#5 (.imm 8#13)).toNat
    let eb := (alternateAddress ready 0#5 0#5).toNat
    ea % 2 = 0 ∧ ea % 4 = 0 ∧ ea % 8 = 0 ∧ eb % 2 = 0 ∧ eb % 4 = 0 ∧ eb % 8 = 0 ∧ (0#5).toNat % 2 = 0 ∧ (30#5).toNat % 2 = 0
    ∧ 2 ≤ ready.cfg.nwindows ∧ ready.cfg.nwindows ≤ 32 := by decide

theorem test_met_AsiAllowed : AsiAllowed ready 0#8 ∧ AsiAllowed { ready with sup := false } 0x80#8 :=
  ⟨Or.inl rfl, Or.inr ⟨rfl, by decide⟩⟩

/-- With `test_met_alignment`: untranslated, and in the first and last bypass space. -/
theorem test_met_LoadInstructions :
    Reaches ready (dataAsi ready) (effectiveAddress ready 0#5 (.imm 8#13)) .load 8 ready
    ∧ AsiAllowed ready 0x20#8 ∧ Reaches ready 0x20#8 (alternateAddress ready 0#5 0#5) .load 0 ready
    ∧ AsiAllowed ready 0x2F#8 ∧ Reaches ready 0x2F#8 (alternateAddress ready 0#5 0#5) .load 0xF00000000 ready :=
  ⟨rfl, Or.inl rfl, rfl, Or.inl rfl, rfl⟩

theorem test_met_StoreInstructions : Inv ready
    ∧ Reaches ready (dataAsi ready) (effectiveAddress ready 0#5 (.imm 8#13)) .store 8 ready
    ∧ AsiAllowed ready 0x2F#8 ∧ Reaches ready 0x2F#8 (alternateAddress ready 0#5 0#5) .store 0xF00000000 ready :=
  ⟨test_met_Inv.1, rfl, Or.inl rfl, rfl⟩

theorem test_met_AtomicInstructions : Inv ready
    ∧ Reaches ready (dataAsi ready) (effectiveAddress ready 0#5 (.imm 8#13)) .atomic 8 ready
    ∧ AsiAllowed ready 0x2F#8 ∧ Reaches ready 0x2F#8 (alternateAddress ready 0#5 0#5) .atomic 0xF00000000 ready :=
  ⟨test_met_Inv.1, rfl, Or.inl rfl, rfl⟩

theorem test_met_MisalignedTraps :
    let s := sample 1#32 6#32 0#32 0b0000#4
    (effectiveAddress s 1#5 (.imm 0#13)).toNat % 2 ≠ 0 ∧ (effectiveAddress s 2#5 (.imm 0#13)).toNat % 4 ≠ 0
    ∧ (effectiveAddress s 0#5 (.imm 4#13)).toNat % 8 ≠ 0 ∧ (30#5).toNat % 2 = 0 ∧ (31#5).toNat % 2 = 1
    ∧ (alternateAddress s 1#5 0#5).toNat % 2 ≠ 0 ∧ (alternateAddress s 2#5 0#5).toNat % 4 ≠ 0
    ∧ (alternateAddress s 2#5 0#5).toNat % 8 ≠ 0 := by decide

/-- A miss of each kind, at an address aligned to 8, in the ordinary and in an alternate space; a bus error without translation
and one after a walk, which marked its entry. -/
theorem test_met_FaultedAccess :
    let u := { unmapped with far := 8#32 }
    let ea := effectiveAddress unmapped 0#5 (.imm 8#13)
    let w := { unmapped with far := 0#32 }
    let eb := alternateAddress unmapped 0#5 0#5
    let b := { ready with inject := some .data }
    resolve unmapped (dataAsi unmapped) ea .load = .trap 0x2C#8 u ∧ resolve unmapped (dataAsi unmapped) ea .store = .trap 0x2C#8 u
    ∧ resolve unmapped (dataAsi unmapped) ea .atomic = .trap 0x2C#8 u ∧ ea.toNat % 8 = 0
    ∧ AsiAllowed unmapped 0x0A#8 ∧ resolve unmapped 0x0A#8 eb .load = .trap 0x2C#8 w
    ∧ resolve unmapped 0x0A#8 eb .store = .trap 0x2C#8 w ∧ resolve unmapped 0x0A#8 eb .atomic = .trap 0x2C#8 w
    ∧ eb.toNat % 8 = 0
    ∧ (TranslationOff b ∧ b.inject = some .data ∧ isMemoryAsi 0x0B#8 = true ∧ b.cfg.physExists (0xFFFFFFFF#32).toNat = true) :=
  ⟨rfl, rfl, rfl, by decide, Or.inl rfl, rfl, rfl, rfl, by decide, ⟨Or.inr ⟨Or.inr rfl, rfl⟩, rfl, by decide, by decide⟩⟩

theorem test_met_FaultedAccess_walked :
    let s := { held with inject := some .data }
    Inv held ∧ ∃ u, resolve s 0x0B#8 0x2004#32 .load = .trap 0x29#8 u ∧ u.wordAt 0x4008 = 0x53E#32 :=
  ⟨test_met_Inv.2.2.2, _, rfl, by decide⟩

/-- The context register of the MMU at ASI 4, address 0x200; PCR of the first timer. -/
theorem test_met_RegisterAccess :
    let s := sample 0x200#32 5#32 0#32 0b0000#4
    AsiAllowed s 4#8 ∧ isMemoryAsi 4#8 = false ∧ isBypassAsi s.cfg 4#8 = false
    ∧ registerAt s.cfg 4#8 (alternateAddress s 1#5 0#5) = some (.mmu 0x200#32) ∧ (alternateAddress s 1#5 0#5).toNat % 4 = 0
    ∧ readRegister s (.mmu 0x200#32) = .ok 0#32 s ∧ writeRegister s (.mmu 0x200#32) (s.reg 2#5) = .ok () { s with ctx := 5#7 }
    ∧ (alternateAddress s 1#5 0#5).toNat % 8 = 0 ∧ (4#5).toNat % 2 = 0 ∧ (∀ n, Register.mmu 0x200#32 ≠ .timer n 0) :=
  ⟨Or.inl rfl, by decide, by decide, by decide, by decide, rfl, rfl, by decide, by decide, by simp⟩

theorem test_met_RegisterAccess_timer :
    let s := sample 0x5000#32 0#32 0#32 0b0000#4
    AsiAllowed s 0xC1#8 ∧ isMemoryAsi 0xC1#8 = false ∧ isBypassAsi s.cfg 0xC1#8 = false
    ∧ registerAt s.cfg 0xC1#8 (alternateAddress s 1#5 0#5) = some (.timer 0 0) ∧ (alternateAddress s 1#5 0#5).toNat % 8 = 0
    ∧ readRegister s (.timer 0 0) = .ok 1#32 s ∧ (∃ x, readRegister s (.timer 0 4) = .ok x s)
    ∧ (∃ t, writeRegister s (.timer 0 0) 1#32 = .ok () t ∧ ∃ u, writeRegister t (.timer 0 4) 0#32 = .ok () u) :=
  ⟨Or.inl rfl, by decide, by decide, by decide, by decide, rfl, ⟨_, rfl⟩, _, rfl, _, rfl⟩

/-- The five MMU registers, the first descriptor, and the handlers in the first and the last slot. -/
theorem test_met_RegisterAccess_values :
    let s := State.reset
    (s.cfg.mmu = .v8ref ∨ s.cfg.mmu = .v8eref)
    ∧ [0#32, 0x100#32, 0x200#32, 0x300#32, 0x400#32].map (fun ea => ea.toNat / 256 % 16) = [0, 1, 2, 3, 4]
    ∧ s.tlb[0]?.isSome = true ∧ s.cfg.wf = true ∧ s.cfg.mmu = .v8eref ∧ 7 < s.cfg.nTlb
    ∧ s.cfg.tlbBase + 4096 ≤ 2 ^ 32 ∧ s.handlers[15 * (1 / 16) + 1 % 16 - 1]?.isSome = true
    ∧ s.handlers[15 * (15 / 16) + 15 % 16 - 1]?.isSome = true := by decide

/-- Memory spaces 0x08 and 0x0B without translation, and the first and last bypass space. -/
theorem test_met_UntranslatedAccess :
    State.reset.inject ≠ some .data ∧ TranslationOff State.reset ∧ isMemoryAsi 0x08#8 = true ∧ isMemoryAsi 0x0B#8 = true
    ∧ State.reset.cfg.physExists (0xFFFFFFFF#32).toNat = true
    ∧ (State.reset.cfg.mmu = .v8ref ∨ State.reset.cfg.mmu = .v8eref)
    ∧ (0x20#8).toNat / 16 = 2 ∧ (0x2F#8).toNat / 16 = 2
    ∧ State.reset.cfg.physExists ((0x2F#8).toNat % 16 * 2 ^ 32 + (0xFFFFFFFF#32).toNat) = true :=
  ⟨by decide, Or.inr ⟨Or.inr rfl, rfl⟩, by decide, by decide, by decide, by decide, by decide, by decide, by decide⟩

theorem test_met_CacheabilityAlias :
    let s := { State.reset with cfg := { Config.reference with mmu := .cacheability } }
    s.inject ≠ some .data ∧ s.cfg.mmu = .cacheability ∧ isMemoryAsi 0x0A#8 = true := by decide

/-- Exactly one match: a state's only descriptor. -/
theorem only_match {s : State} {e : TlbEntry} {va : Word} (hs : s.tlb = [e]) (hm : e.matches va s.ctx = true) :
    s.tlb[0]? = some e ∧ ∀ j e', s.tlb[j]? = some e' → (e'.matches va s.ctx = true ↔ j = 0) := by
  refine ⟨by simp [hs], fun j e' h => ?_⟩
  rcases j with _ | j
  · simp_all
  · simp [hs] at h

/-- Software table walk: no match; one match that allows a supervisor's load, and refuses a user's. Hardware table walk: the
same page held, marked and unmarked. -/
theorem test_met_TranslatedAccess_hit :
    let e : TlbEntry := ⟨0x0000051F#32, 0x00002002#32, false⟩
    (mapped.cfg.mmu = .v8eref ∧ mapped.mmuEnable = true ∧ mapped.cfg.tableWalk = .software)
    ∧ (∀ e ∈ unmapped.tlb, e.matches 0x2000#32 unmapped.ctx = false)
    ∧ (mapped.tlb[0]? = some e ∧ ∀ j e', mapped.tlb[j]? = some e' → (e'.matches 0x2004#32 mapped.ctx = true ↔ j = 0))
    ∧ (held.tlb[0]? = some e ∧ ∀ j e', held.tlb[j]? = some e' → (e'.matches 0x2004#32 held.ctx = true ↔ j = 0))
    ∧ (held.mmuEnable = true ∧ held.cfg.tableWalk ≠ .software ∧ marked e.word0 .load ≠ e.word0
      ∧ marked 0x0000053F#32 .load = 0x0000053F#32 ∧ walk held 0x2004#32 true = .entry 0x4008 0x51E#32 3#2 false)
    ∧ accAllows (accField e.word0) (asiSupervisor 0x0B#8) .load = true
    ∧ accAllows (accField e.word0) (asiSupervisor 0x0A#8) .load = false :=
  ⟨by decide, by decide, only_match rfl (by decide), only_match rfl (by decide), by decide, by decide, by decide⟩

/-- Two matches; no match under a hardware walk, with each end of the walk, an unlocked and a locked descriptor. -/
theorem test_met_TranslatedAccess_miss :
    let e : TlbEntry := ⟨0x0000051F#32, 0x00002002#32, false⟩
    let two := { mapped with tlb := [e, e] }
    (two.tlb[0]? = some e ∧ two.tlb[1]? = some e ∧ e.matches 0x2004#32 two.ctx = true)
    ∧ (tabled.mmuEnable = true ∧ tabled.cfg.tableWalk ≠ .software ∧ ∀ e ∈ tabled.tlb, e.matches 0x2004#32 tabled.ctx = false)
    ∧ walk { tabled with ctp := 1#30 } 0x2004#32 true = .misaligned
    ∧ walk tabled 0x1000#32 true = .fault 1#3 3#2
    ∧ walk tabled 0x2004#32 true = .entry 0x4008 0x51E#32 3#2 false
    ∧ accAllows (accField 0x51E#32) (asiSupervisor 0x0B#8) .store = true
    ∧ accAllows (accField 0x51E#32) (asiSupervisor 0x0A#8) .store = false
    ∧ (∃ e ∈ tabled.tlb, e.lb = false)
    ∧ ∀ e ∈ ({ tabled with tlb := [⟨0#32, 0#32, true⟩] }).tlb, e.lb = true := by decide

/-- A translated load that marks its descriptor, and one that also marks its entry in memory. -/
theorem test_met_TranslationFrame : Inv mapped ∧ Reaches mapped (dataAsi mapped) 0x2004#32 .load 0x5004
    { mapped with tlb := [⟨0x0000053F#32, 0x00002002#32, false⟩] }
    ∧ Inv held ∧ ∃ t, Reaches held (dataAsi held) 0x2004#32 .load 0x5004 t ∧ t.wordAt 0x4008 = 0x53E#32 :=
  ⟨test_met_Inv.2.1, rfl, test_met_Inv.2.2.2, _, rfl, by decide⟩

/-- The walk of `tabled` at each level, with an entry of each type. -/
theorem test_met_TranslationFrame_walk :
    (TableAt tabled 0x1000 (max 64 (4 * 2 ^ tabled.cfg.ctxBits)) 0x1000 ∧ (tabled.wordAt 0x1000).toNat % 4 = 1)
    ∧ (TableAt tabled 0x2000 1024 0x2000 ∧ (tabled.wordAt 0x2000).toNat % 4 = 1 ∧ (tabled.wordAt 0x2004).toNat % 4 = 2)
    ∧ (TableAt tabled 0x3000 256 0x3000 ∧ (tabled.wordAt 0x3000).toNat % 4 = 1 ∧ (tabled.wordAt 0x3004).toNat % 4 = 2)
    ∧ (TableAt tabled 0x4000 256 0x4008 ∧ (tabled.wordAt 0x4008).toNat % 4 = 2 ∧ (tabled.wordAt 0x4004).toNat % 4 = 0
      ∧ (tabled.wordAt 0x400C).toNat % 4 = 1)
    ∧ walk tabled 0x01000000#32 true = .entry 0x2004 0x1E#32 1#2 false
    ∧ walk tabled 0x00040000#32 true = .entry 0x3004 0x1E#32 2#2 false
    ∧ walk tabled 0x00003000#32 true = .fault 4#3 3#2 := by
  unfold TableAt
  decide

theorem test_met_TrapEntry : ({ State.reset with et := true }).et = true ∧ State.reset.et = false := by decide

/-- Level 15 with PIL = 15, requested by the interrupt controller. -/
theorem test_met_InterruptCondition :
    let s := { State.reset with et := true, pil := 15#4, iircs := [{ Iirc.reset Config.reference with irlLatch := 15#4 }] }
    let t := { s with env := [.processor] }
    ProcessorTurn s s ∧ s.errorMode = false ∧ s.inject ≠ some .store ∧ s.interruptCondition = true
    ∧ ProcessorTurn t s ∧ t.interruptCondition = true :=
  ⟨Or.inl ⟨rfl, rfl⟩, rfl, by decide, by decide, Or.inr ⟨[], rfl, rfl⟩, by decide⟩

theorem test_met_ErrorMode :
    let s := { State.reset with errorMode := true }
    s.errorMode = true ∧ s.env = [] ∧ ({ s with env := [.processor] }).env = .processor :: []
    ∧ ({ s with env := [.reset] }).env = .reset :: [] := by decide

/-- `sethi 0x8,%o0` placed at address 0. -/
def placed : State := ({ State.reset with et := true }).placeWord 0 0x11000008#32

theorem test_met_StepRunsDecoded :
    ProcessorTurn placed placed ∧ ProcessorTurn { placed with env := [.processor] } placed ∧ placed.errorMode = false ∧ placed.interruptCondition = false ∧ placed.inject = none
    ∧ fetch placed = .ok 0x11000008#32 placed ∧ TranslationOff placed ∧ placed.cfg.physExists placed.pc.toNat = true
    ∧ placed.pc.toNat % 4 = 0 ∧ placed.pc.toNat ∉ placed.stale
    ∧ decode placed.cfg (BitVec.ofNat 32 (bigEndian placed placed.pc.toNat 4)) = .instr (.sethi 8#5 8#22) :=
  ⟨Or.inl ⟨rfl, rfl⟩, Or.inr ⟨[], rfl, rfl⟩, rfl, by decide, rfl, rfl, Or.inr ⟨Or.inr rfl, rfl⟩, by decide, by decide, by decide,
    by decide⟩

theorem test_met_StepKeepsInvariant : Inv ready ∧ ∃ t, step ready = .next t := ⟨test_met_Inv.1, _, rfl⟩

theorem test_met_InvariantAtReset : Config.reference.wf = true := by decide

theorem test_met_ResetTrap : ({ State.reset with env := [.reset] }).env = .reset :: [] := by decide

theorem test_met_UserModeProtection :
    let s := { State.reset with et := true, sup := false }
    s.sup = false ∧ (after (.add 1#5 2#5 (.reg 3#5)) s fun _ => true) = some true
    ∧ (after (.ta 0#5 (.imm 3#7)) s fun t => t.sup) = some true
    ∧ (after (.ta 0#5 (.imm 3#7)) { s with et := false } fun t => (t.errorMode, t.sup)) = some (true, false) := by decide

theorem test_met_InterruptLevel :
    let u := { Iirc.reset Config.reference with irqLatch := 0x8002#16 }
    u.irqLatch.getLsbD 1 = true ∧ u.mask.getLsbD 1 = false ∧ u.irqLatch.getLsbD 15 = true ∧ u.mask.getLsbD 15 = false := by decide

theorem test_met_RequestClear :
    let t := (Iirc.reset Config.reference).store true 0x0C 0xFFFE#32
    let c := { Config.reference with levelSamples := 1 }
    t.mode 1 = 0#2 ∧ t.mode 15 = 0#2 ∧ c.levelSamples = 1 ∧ (0x8002#16).getLsbD 1 = true ∧ (0x8002#16).getLsbD 15 = true := by
  decide

/-- The shortest period of each form, and the widest and narrowest counter. -/
theorem test_met_CounterPeriod :
    (∀ f ∈ [ScForm.overflow, .equalZero, .underflow], 1 ≤ (match f with
      | .equalZero => (1#32).toNat
      | .underflow => (1#32).toNat + 1
      | .overflow => 2 ^ 8 - (1#32).toNat))
    ∧ (1#32).toNat < 2 ^ 8 ∧ (0xFFFFFFFF#32).toNat < 2 ^ 32
    ∧ 8 ≤ Config.reference.scBits ∧ Config.reference.scBits ≤ 32
    ∧ (⟨1#32, 1#32, false⟩ : SimpleCounter).count = (⟨1#32, 1#32, false⟩ : SimpleCounter).preload := by decide

/-- COUNTER at 2, at 1 and stopped. -/
theorem test_met_PulsePeriod :
    let c := Config.reference
    let p := { Ppg.reset with sRun := true, cRun := true, scalerCnt := 1#32, scalerSet := 1#32, counterCnt := 2#32 }
    (8 ≤ c.scalerBits ∧ c.scalerBits ≤ 32 ∧ 8 ≤ c.counterBits ∧ c.counterBits ≤ 32)
    ∧ p.sRun = true ∧ p.cRun = true ∧ p.scalerCnt = p.scalerSet ∧ p.scalerSet ≠ 0#32
    ∧ p.scalerSet.toNat < 2 ^ c.scalerBits ∧ 2 ≤ p.counterCnt.toNat ∧ p.counterCnt.toNat < 2 ^ c.counterBits
    ∧ ({ p with counterCnt := 1#32 }).counterCnt.toNat = 1 ∧ ({ p with cRun := false }).cRun = false := by decide

theorem test_met_TimerTrace :
    let t := Timer.reset Config.reference
    (8 ≤ Config.reference.stBits ∧ Config.reference.stBits ≤ 32) ∧ t.phase = .stopped ∧ t.inLine = false
    ∧ ({ t with control := { TimerControl.reset with ce := true, event := 1#3 } }).control
      = { TimerControl.reset with ce := true, event := 1#3 }
    ∧ ({ t with control := { TimerControl.reset with mode := 3#3, ce := true, event := 1#3 } }).control
      = { TimerControl.reset with mode := 3#3, ce := true, event := 1#3 } := by decide

end Sys2Proof.Tests
end

namespace Sys2Proof.Machine

/-! ## The current window (spec/10_state.md R35) -/

/-- R35, AW = 1 on an implementation that has the alternate window pointer. -/
theorem State.window_of_alternate {s : State} (h : s.cfg.awp = true ∧ s.aw = true) : s.window = s.awpReg.toNat := by
  obtain ⟨hawp, haw⟩ := h
  simp [State.window, hawp, haw]

/-- R35, AW = 0; without the option AW selects nothing. -/
theorem State.window_of_not_alternate {s : State} (h : ¬(s.cfg.awp = true ∧ s.aw = true)) : s.window = s.cwp.toNat :=
  if_neg (by simpa using h)

/-- Both cases of R35, in the form in which statements spell the condition. -/
theorem State.window_eq_ite (s : State) :
    s.window = if s.cfg.awp = true ∧ s.aw = true then s.awpReg.toNat else s.cwp.toNat := by
  split
  case isTrue h => exact State.window_of_alternate h
  case isFalse h => exact State.window_of_not_alternate h

/-- Reading a register reads it in the current window (R31). -/
theorem State.reg_eq_regIn_window (s : State) (r : RegNum) : s.reg r = s.regIn s.window r := rfl

/-- Writing a register writes it in the current window (R31). -/
theorem State.setReg_eq_setRegIn_window (s : State) (r : RegNum) (x : Word) : s.setReg r x = s.setRegIn s.window r x := rfl

/-- Settles O8: register reads and writes go through `State.window`, which is the window that R35 names. -/
theorem currentWindow : Obligations.CurrentWindow := by
  intro s r x
  rw [← State.window_eq_ite s]
  exact ⟨s.reg_eq_regIn_window r, s.setReg_eq_setRegIn_window r x⟩

end Sys2Proof.Machine

namespace Sys2Proof.Machine

/-! ## Cacheability control (spec/20_memory.md R157) -/

/-- The low 31 bits of a word, as the number that a physical address is. -/
theorem zeroExtend_low31_toNat (va : Word) : ((va.extractLsb' 0 31).zeroExtend 36).toNat = va.toNat % 2 ^ 31 := by
  have hlow : (va.extractLsb' 0 31).toNat = va.toNat % 2 ^ 31 := by simp
  exact (BitVec.toNat_setWidth_of_le (by decide)).trans hlow

/-- R157: the low 31 bits are the physical address; no permission is checked and nothing changes. -/
theorem translate_cacheability {s : State} (hm : s.cfg.mmu = .cacheability) (va : Word) (asi : Asi) (kind : AccessKind) :
    translate s va asi kind = .ok ((va.extractLsb' 0 31).zeroExtend 36) s := by
  simp [translate, hm]

/-- Every address of 31 bits exists with cacheability control (log 6). -/
theorem physExists_low31 {c : Config} (hm : c.mmu = .cacheability) (n : Nat) : c.physExists (n % 2 ^ 31) = true := by
  have hbits : c.physBits = 31 := by simp [Config.physBits, hm]
  rw [Config.physExists, hbits]
  exact decide_eq_true (Nat.mod_lt n (by decide))

/-- No access is beyond the implemented addresses: the 31 bits that translation keeps are the ones that exist. -/
theorem locate_cacheability {s : State} (hm : s.cfg.mmu = .cacheability) (va : Word) (asi : Asi) (kind : AccessKind) :
    locate s va asi kind = .ok (va.toNat % 2 ^ 31) s := by
  rw [locate, translate_cacheability hm, Access.bind_ok, zeroExtend_low31_toNat, if_pos (physExists_low31 hm _)]

/-- Where no bus error waits, a located address is the memory place that an access reaches. -/
theorem memoryPlace_of_not_injected {s : State} (hi : s.inject ≠ some .data) (pa : Nat) :
    memoryPlace s pa = .ok (.memory pa) s := if_neg hi

/-- In a memory address space an access reaches the place that its translation locates, if no bus error waits there. -/
theorem reaches_of_locate {s t : State} {asi : Asi} {ea : Word} {kind : AccessKind} {pa : Nat}
    (ha : isMemoryAsi asi = true) (hl : locate s ea asi kind = .ok pa t) (hi : t.inject ≠ some .data) :
    Reaches s asi ea kind pa t := by
  rw [Reaches, resolve, if_pos ha, hl, Access.bind_ok, memoryPlace_of_not_injected hi]

/-- Adding 2^31 to an address keeps its low 31 bits. -/
theorem add_msb_mod (ea : Word) : (ea + 0x80000000#32).toNat % 2 ^ 31 = ea.toNat % 2 ^ 31 := by
  rw [BitVec.toNat_add, BitVec.toNat_ofNat]
  omega

/-- Settles O42: both addresses reach the physical address of the low 31 bits, which they share, and an access has only one
outcome. -/
theorem cacheabilityAlias : Obligations.CacheabilityAlias := by
  intro s ea asi kind hi hm ha
  have reaches (va : Word) : Reaches s asi va kind (va.toNat % 2 ^ 31) s :=
    reaches_of_locate ha (locate_cacheability hm va asi kind) hi
  have same : resolve s asi ea kind = resolve s asi (ea + 0x80000000#32) kind :=
    calc resolve s asi ea kind
      _ = .ok (.memory (ea.toNat % 2 ^ 31)) s := reaches ea
      _ = .ok (.memory ((ea + 0x80000000#32).toNat % 2 ^ 31)) s := by rw [add_msb_mod]
      _ = resolve s asi (ea + 0x80000000#32) kind := (reaches _).symm
  refine ⟨reaches ea, fun pa t => ?_⟩
  rw [Reaches, Reaches, same]

end Sys2Proof.Machine

namespace Sys2Proof.Machine

/-! ## The divide step (spec/40_divide_step.md R250 to R252) -/

/-- Shifting a word left by one with `b` in bit 0, as a number: how R250 forms both the remainder and the new quotient word. -/
theorem shiftLeftIn_eq_ofNat (x : Word) (b : Bool) :
    x.extractLsb' 0 31 ++ BitVec.ofBool b = BitVec.ofNat 32 (2 * x.toNat + b.toNat) := by
  apply BitVec.eq_of_toNat_eq
  have hlow : (x.extractLsb' 0 31).toNat = x.toNat % 2 ^ 31 := by simp
  have hb : b.toNat < 2 ^ 1 := b.toNat_lt
  rw [BitVec.toNat_append, hlow, BitVec.toNat_ofBool, ← Nat.shiftLeft_add_eq_or_of_lt hb, BitVec.toNat_ofNat,
    Nat.shiftLeft_eq]
  omega

/-- The top bit of a word, as a number. -/
theorem msb_toNat_eq_div (a : Word) : a.msb.toNat = a.toNat / 2 ^ 31 := by
  have ha := a.isLt
  rw [BitVec.msb_eq_decide, Bool.toNat, Bool.cond_decide]
  split <;> omega

/-- The remainder of R250 step 2. -/
theorem divideStepRem_toNat (y a : Word) :
    (y.extractLsb' 0 31 ++ BitVec.ofBool a.msb).toNat = (2 * y.toNat + a.toNat / 2 ^ 31) % 2 ^ 32 := by
  rw [shiftLeftIn_eq_ofNat, BitVec.toNat_ofNat, msb_toNat_eq_div]

/-- On the add path the 33-bit sum is exact (R250 step 4). -/
theorem divideStepSum_true_toNat (rem divisor : Word) :
    (divideStepSum true rem divisor).toNat = rem.toNat + divisor.toNat := by
  simp only [divideStepSum, if_true, BitVec.toNat_add, BitVec.truncate_eq_setWidth, BitVec.toNat_setWidth]
  omega

/-- On the subtract path the 33-bit sum is 2^32 above the difference, so that its top bit says "no borrow" (R252). -/
theorem divideStepSum_false_toNat (rem divisor : Word) :
    (divideStepSum false rem divisor).toNat = rem.toNat + (2 ^ 32 - divisor.toNat) := by
  simp only [divideStepSum, Bool.false_eq_true, if_false, BitVec.toNat_add, BitVec.truncate_eq_setWidth,
    BitVec.toNat_setWidth, BitVec.toNat_not, BitVec.toNat_ofNat]
  omega

/-- The ALU result: the low word of the 33-bit sum is the sum or the difference modulo 2^32 (R250 step 4). -/
theorem divideStepSum_low (t : Bool) (rem divisor : Word) :
    (divideStepSum t rem divisor).extractLsb' 0 32
      = BitVec.ofInt 32 (if t = true then (rem.toNat : Int) + divisor.toNat else (rem.toNat : Int) - divisor.toNat) := by
  apply BitVec.eq_of_toNat_eq
  rw [BitVec.extractLsb'_toNat, BitVec.toNat_ofInt, Nat.shiftRight_zero]
  cases t with
  | true => rw [divideStepSum_true_toNat, if_pos rfl]; omega
  | false => rw [divideStepSum_false_toNat, if_neg Bool.false_ne_true]; omega

/-- The carry-out c0 on both paths, the reading of R252. -/
theorem divideStepSum_msb (t : Bool) (rem divisor : Word) :
    (divideStepSum t rem divisor).msb
      = if t = true then decide (2 ^ 32 ≤ rem.toNat + divisor.toNat) else decide (divisor.toNat ≤ rem.toNat) := by
  rw [BitVec.msb_eq_decide]
  cases t with
  | true => rw [divideStepSum_true_toNat, if_pos rfl]
  | false =>
    rw [divideStepSum_false_toNat, if_neg Bool.false_ne_true]
    exact decide_eq_decide.mpr (by omega)

/-- The shifted dividend with the new quotient bit, the complement of the new true sign (R250). -/
theorem divideStepQuotient_eq (a : Word) (ts : Bool) :
    a.extractLsb' 0 31 ++ BitVec.ofBool (!ts) = BitVec.ofNat 32 (2 * a.toNat + if ts = true then 0 else 1) := by
  rw [shiftLeftIn_eq_ofNat]
  cases ts <;> rfl

/-- The dispatch of DIVScc. -/
theorem exec_divscc (rd rs1 : RegNum) (op : Operand2) (s : State) :
    exec (.divscc rd rs1 op) s = execDivscc rd rs1 op s := rfl

/-- The template of spec/45_v8_base_alu.md R340 with condition codes, for an instruction that also writes Y. -/
theorem completes_of_writeYCc {i : Instr} {s : State} {y : Word} {rd : RegNum} {v : Word} {f : Icc}
    (h : exec i s = writeResultCc { s with y := y } rd v f) :
    Completes i s { s with y := y, n := f.n, z := f.z, v := f.v, c := f.c } rd v := by
  have hwrite : exec i s = .next ((State.setIcc { s with y := y } f).setReg rd v).advance := by
    rw [h, writeResultCc, State.setReg_setIcc]
  exact completes_of_write hwrite rfl rfl rfl rfl

/-- Settles O17: both paths of the adder give R250's ALU result and carry-out, from which the flags and the quotient bit
follow. -/
theorem divideStep : Obligations.DivideStep := by
  intro s rd rs1 op a b t y31 r alu c0 ts
  have hn : alu.msb = alu.getLsbD 31 := BitVec.msb_eq_getLsbD_last alu
  have hy31 : s.y.msb = y31 := BitVec.msb_eq_getLsbD_last s.y
  have hexec : exec (.divscc rd rs1 op) s
      = writeResultCc { s with y := alu } rd (BitVec.ofNat 32 (2 * a.toNat + if ts = true then 0 else 1))
          { n := alu.getLsbD 31, z := decide (alu = 0#32 ∧ t = y31), v := ts ^^ alu.getLsbD 31, c := !ts } := by
    rw [exec_divscc, execDivscc, divideStepSum_low, divideStepSum_msb, divideStepRem_toNat, hy31, ← hn,
      ← divideStepQuotient_eq, Bool.decide_and, beq_eq_decide, beq_eq_decide]
    rfl
  exact completes_of_writeYCc hexec

end Sys2Proof.Machine

namespace Sys2Proof.Machine

/-! ## SCAN (spec/41_scan.md R260 to R262) -/

/-- The register mask of R261: the arithmetic shift halves the signed value, rounding down. -/
theorem scanMask_reg (s : State) (rs2 : RegNum) :
    scanMask s (.reg rs2) = BitVec.ofInt 32 ((s.reg rs2).toInt / 2) := by
  rw [scanMask, BitVec.sshiftRight_eq, Int.shiftRight_eq_div_pow]
  rfl

/-- The immediate mask of R261: the sign-extended number, not shifted. -/
theorem scanMask_imm (s : State) (simm13 : BitVec 13) : scanMask s (.imm simm13) = BitVec.ofInt 32 simm13.toInt := rfl

/-- R262: the zero word has no first 1 bit. -/
theorem firstOne_zero : firstOne 0#32 = none := by
  rw [firstOne, List.find?_range_eq_none]
  intro k _
  rw [BitVec.getLsbD_zero]
  rfl

/-- R260: counted from the top, the first 1 bit of a nonzero word is at `31 - log2`, where a 1 bit has only 0 bits above
it. -/
theorem firstOne_of_ne_zero {x : Word} (hx : x ≠ 0#32) : firstOne x = some (31 - x.toNat.log2) := by
  have hx' : x.toNat ≠ 0 := fun h => hx (BitVec.eq_of_toNat_eq h)
  have hlog : x.toNat.log2 < 32 := (Nat.log2_lt hx').mpr x.isLt
  rw [firstOne, List.find?_range_eq_some]
  refine ⟨?_, List.mem_range.mpr (by omega), fun k hk => ?_⟩
  · rw [show 31 - (31 - x.toNat.log2) = x.toNat.log2 by omega]
    exact Nat.testBit_log2 hx'
  · have habove : x.toNat < 2 ^ (31 - k) := (Nat.log2_lt hx').mp (by omega)
    rw [Bool.not_eq_true']
    exact Nat.testBit_lt_two_pow habove

/-- The result of R260 in closed form, with R262's value for the zero word. -/
theorem scanResult_eq (c : Config) (x : Word) :
    scanResult c x = if x = 0#32 then c.scanNomatch else BitVec.ofNat 32 (31 - x.toNat.log2) := by
  split
  case isTrue h => rw [h, scanResult, firstOne_zero]
  case isFalse h => rw [scanResult, firstOne_of_ne_zero h]

/-- The dispatch of SCAN. -/
theorem exec_scan (rd rs1 : RegNum) (op : Operand2) (s : State) : exec (.scan rd rs1 op) s = execScan rd rs1 op s := rfl

/-- SCAN completes in both operand forms; only the mask differs (R260). -/
theorem scan_completes (s : State) (rd rs1 : RegNum) (op : Operand2) :
    Completes (.scan rd rs1 op) s s rd (scanResult s.cfg (s.reg rs1 ^^^ scanMask s op)) :=
  completes_of_write (exec_scan rd rs1 op s) rfl rfl rfl rfl

/-- Settles O18: the first 1 bit that SCAN searches for is at `31 - log2`, and the two masks are those of R261. -/
theorem scan : Obligations.Scan := by
  intro s rd rs1 rs2 simm13 leading
  have hleading (x : Word) : scanResult s.cfg x = leading x := scanResult_eq s.cfg x
  constructor
  · rw [← scanMask_reg, ← hleading]
    exact scan_completes s rd rs1 (.reg rs2)
  · rw [← scanMask_imm s, ← hleading]
    exact scan_completes s rd rs1 (.imm simm13)

end Sys2Proof.Machine

namespace Sys2Proof.Machine

/-! ## PSR as a word (spec/10_state.md R40) -/

/-- A flag placed at bit `j` of a word. -/
theorem bit_shiftLeft_getLsbD (b : Bool) (j k : Nat) :
    (bit b <<< j).getLsbD k = (decide (k < 32) && decide (k = j) && b) := by
  cases b with
  | false => simp [bit]
  | true =>
    rw [bit, if_pos rfl, BitVec.getLsbD_shiftLeft, BitVec.getLsbD_one, Bool.and_true, Bool.eq_iff_iff]
    simp only [Bool.and_eq_true, Bool.not_eq_true', decide_eq_true_eq, decide_eq_false_iff_not]
    omega

/-- A legal implementation places AW and PAW in the field of PSR that V8 reserves, bits 19:14 (spec/00_scope.md R12). -/
theorem Config.alternateBits_of_coreWf {c : Config} (h : c.coreWf = true) :
    (14 ≤ c.psrAwBit ∧ c.psrAwBit ≤ 19) ∧ (14 ≤ c.psrPawBit ∧ c.psrPawBit ≤ 19) := by
  simp only [Config.coreWf, Bool.and_eq_true, decide_eq_true_eq] at h
  omega

/-- A field placed at bit `j` of a word. -/
theorem zeroExtend_shiftLeft_getLsbD {n : Nat} (x : BitVec n) (j : Nat) {k : Nat} (hk : k < 32) :
    (x.zeroExtend 32 <<< j).getLsbD k = (decide (j ≤ k) && x.getLsbD (k - j)) := by
  rw [BitVec.getLsbD_shiftLeft]
  rcases Nat.lt_or_ge k j with hlt | hge
  · simp [hlt, hlt.not_ge]
  · simp [hge, hge.not_gt, hk, show k - j < 32 by omega]

/-- PSR bit by bit: each flag has one bit, and each wider field fills its own bits. -/
theorem State.psr_getLsbD (s : State) {k : Nat} (hk : k < 32) :
    s.psr.getLsbD k =
      (decide (28 ≤ k) && s.cfg.psrImpl.getLsbD (k - 28) || decide (24 ≤ k) && s.cfg.psrVer.getLsbD (k - 24)
        || decide (k = 23) && s.n || decide (k = 22) && s.z || decide (k = 21) && s.v || decide (k = 20) && s.c
        || s.cfg.awp && (decide (k = s.cfg.psrAwBit) && s.aw || decide (k = s.cfg.psrPawBit) && s.paw)
        || decide (8 ≤ k) && s.pil.getLsbD (k - 8) || decide (k = 7) && s.sup || decide (k = 6) && s.ps
        || decide (k = 5) && s.et || s.cwp.getLsbD k) := by
  have alternate : (if s.cfg.awp then (bit s.aw <<< s.cfg.psrAwBit) ||| (bit s.paw <<< s.cfg.psrPawBit) else 0#32).getLsbD k
      = (s.cfg.awp && (decide (k = s.cfg.psrAwBit) && s.aw || decide (k = s.cfg.psrPawBit) && s.paw)) := by
    cases s.cfg.awp with
    | false => exact BitVec.getLsbD_zero
    | true => rw [if_pos rfl, BitVec.getLsbD_or, bit_shiftLeft_getLsbD, bit_shiftLeft_getLsbD]; simp [hk]
  have cwp : (s.cwp.zeroExtend 32).getLsbD k = s.cwp.getLsbD k := by simp [hk]
  simp only [State.psr, BitVec.getLsbD_or, zeroExtend_shiftLeft_getLsbD _ _ hk, alternate, cwp, bit_shiftLeft_getLsbD, hk,
    decide_true, Bool.true_and]

/-- EF and EC, bits 12 and 13, read 0. -/
theorem State.psr_coprocessorBits {s : State} (h : s.cfg.coreWf = true) :
    s.psr.getLsbD 12 = false ∧ s.psr.getLsbD 13 = false := by
  obtain ⟨⟨haw, _⟩, ⟨hpaw, _⟩⟩ := Config.alternateBits_of_coreWf h
  have h12 : 12 ≠ s.cfg.psrAwBit ∧ 12 ≠ s.cfg.psrPawBit := by omega
  have h13 : 13 ≠ s.cfg.psrAwBit ∧ 13 ≠ s.cfg.psrPawBit := by omega
  constructor
  · rw [s.psr_getLsbD (by decide)]
    simp [h12]
  · rw [s.psr_getLsbD (by decide)]
    simp [h13]

/-- The top byte of PSR is impl and ver: no other field reaches it. -/
theorem State.psr_topByte {s : State} (h : s.cfg.coreWf = true) :
    s.psr.extractLsb' 24 8 = s.cfg.psrImpl ++ s.cfg.psrVer := by
  obtain ⟨⟨_, haw⟩, ⟨_, hpaw⟩⟩ := Config.alternateBits_of_coreWf h
  apply BitVec.eq_of_getLsbD_eq
  intro k hk
  have hflag {j : Nat} (hj : j ≤ 23) : 24 + k ≠ j := by omega
  have hpil : s.pil.getLsbD (24 + k - 8) = false := BitVec.getLsbD_of_ge _ _ (by omega)
  have hcwp : s.cwp.getLsbD (24 + k) = false := BitVec.getLsbD_of_ge _ _ (by omega)
  rw [BitVec.getLsbD_extractLsb', s.psr_getLsbD (by omega), BitVec.getLsbD_append, hpil, hcwp]
  simp only [hk, hflag, hflag (haw.trans (by decide)), hflag (hpaw.trans (by decide)), Nat.reduceLeDiff]
  rcases Nat.lt_or_ge k 4 with hver | himpl
  · simp [hver, show ¬ 28 ≤ 24 + k by omega]
  · simp [himpl.not_gt, show 28 ≤ 24 + k by omega, show 24 + k - 28 = k - 4 by omega,
      BitVec.getLsbD_of_ge s.cfg.psrVer k himpl]

/-- The top byte of a word, as a number. -/
theorem topByte_toNat (x : Word) : x.toNat / 2 ^ 24 = (x.extractLsb' 24 8).toNat := by
  have hx := x.isLt
  rw [BitVec.extractLsb'_toNat, Nat.shiftRight_eq_div_pow]
  omega

/-- impl and ver read the same in two states of one implementation. -/
theorem State.psr_topByte_congr {s t : State} (h : s.cfg.coreWf = true) (hc : t.cfg = s.cfg) :
    t.psr.toNat / 2 ^ 24 = s.psr.toNat / 2 ^ 24 := by
  rw [topByte_toNat, topByte_toNat, State.psr_topByte h, State.psr_topByte (hc ▸ h), hc]

/-! ## WRPSR (spec/43_awp_wrpsr.md R300 to R303) -/

/-- A privileged instruction in supervisor mode. -/
theorem privileged_of_sup {s : State} (hs : s.sup = true) (k : Host.Outcome State Fault Refusal) : privileged s k = k :=
  if_pos hs

/-- The dispatch of WRPSR. -/
theorem exec_wrpsr (rd rs1 : RegNum) (op : Operand2) (s : State) :
    exec (.wrpsr rd rs1 op) s = execWrpsr rd rs1 op s := rfl

/-- The full write, R301. -/
theorem exec_wrpsr_zero {s : State} (hs : s.sup = true) (rs1 : RegNum) (op : Operand2) :
    exec (.wrpsr 0#5 rs1 op) s = writePsr s (writeValue s rs1 op) := by
  rw [exec_wrpsr, execWrpsr, privileged_of_sup hs, if_pos rfl]

/-- The partial write, R302. -/
theorem exec_wrpsr_etRd {s : State} (hs : s.sup = true) (hp : s.cfg.pwrpsr = true) (hrd : s.cfg.wrpsrEtRd ≠ 0#5)
    (rs1 : RegNum) (op : Operand2) :
    exec (.wrpsr s.cfg.wrpsrEtRd rs1 op) s = .next { s with et := (writeValue s rs1 op).getLsbD 5 }.advance := by
  rw [exec_wrpsr, execWrpsr, privileged_of_sup hs, if_neg hrd, if_pos (by simp [hp])]

/-- The field of a written value that CWP takes, as a number. -/
theorem cwpField_toNat (x : Word) : (x.extractLsb' 0 5).toNat = x.toNat % 32 := by simp

/-- R301, a CWP that is a window: every writable field is written. -/
theorem writePsr_of_lt {s : State} {x : Word} (h : x.toNat % 32 < s.cfg.nwindows) :
    writePsr s x = .next (s.setPsr x).advance :=
  if_neg (by rw [cwpField_toNat]; omega)

/-- R301, a CWP that is no window: illegal_instruction. -/
theorem writePsr_of_le {s : State} {x : Word} (h : s.cfg.nwindows ≤ x.toNat % 32) :
    writePsr s x = takeTrap s ttIllegalInstruction :=
  if_pos (by rwa [cwpField_toNat])

/-- A full write stays within the implementation, whether it traps or completes. -/
theorem writePsr_next_cfg {s t : State} {x : Word} (h : writePsr s x = .next t) : t.cfg = s.cfg := by
  rcases Nat.lt_or_ge (x.toNat % 32) s.cfg.nwindows with hlt | hge
  · rw [writePsr_of_lt hlt] at h
    cases h
    rfl
  · rw [writePsr_of_le hge] at h
    cases h
    exact raise_cfg s _

/-- The fields that `State.setPsr` cuts out of the word, in the arithmetic form in which R301 is stated. -/
theorem State.setPsr_eq (s : State) (x : Word) :
    s.setPsr x = { s with
      n := x.getLsbD 23, z := x.getLsbD 22, v := x.getLsbD 21, c := x.getLsbD 20
      pil := BitVec.ofNat 4 (x.toNat / 256), sup := x.getLsbD 7, ps := x.getLsbD 6, et := x.getLsbD 5
      cwp := BitVec.ofNat 5 x.toNat
      aw := if s.cfg.awp = true then x.getLsbD s.cfg.psrAwBit else s.aw
      paw := if s.cfg.awp = true then x.getLsbD s.cfg.psrPawBit else s.paw } := by
  have hpil : x.extractLsb' 8 4 = BitVec.ofNat 4 (x.toNat / 256) := by
    rw [BitVec.extractLsb', Nat.shiftRight_eq_div_pow]
  rw [State.setPsr, hpil]
  rfl

/-- With r[0] as its first source a write offers the immediate alone (spec/10_state.md R32). -/
theorem writeValue_r0_imm (s : State) (simm13 : BitVec 13) :
    writeValue s 0#5 (.imm simm13) = simm13.signExtend 32 := BitVec.zero_xor

end Sys2Proof.Machine

namespace Sys2Proof.Machine.Psr

/-! ## The statements about WRPSR, in a namespace of their own: the model has a definition `Sys2Proof.Machine.writePsr` -/

/-- Settles O31: a full write completes or traps by the offered CWP alone, and PSR's hard-wired bits are the same in every
state of one implementation. -/
theorem writePsr : Obligations.WritePsr := by
  intro s rs1 op hs x
  have hexec : exec (.wrpsr 0#5 rs1 op) s = Machine.writePsr s x := exec_wrpsr_zero hs rs1 op
  refine ⟨fun hlt => ?completes, fun hge => ?traps, fun hwf t ht => ?hardwired⟩
  case completes => rw [hexec, writePsr_of_lt hlt, State.setPsr_eq, State.advance]
  case traps => exact traps_of_exec (hexec.trans (writePsr_of_le hge))
  case hardwired =>
    have hcfg : t.cfg = s.cfg := writePsr_next_cfg (hexec.symm.trans ht)
    obtain ⟨hef, hec⟩ := State.psr_coprocessorBits (hcfg ▸ hwf : t.cfg.coreWf = true)
    exact ⟨hec, hef, State.psr_topByte_congr hwf hcfg⟩

/-- Settles O32: the partial write is one equation, and the two atomic uses are that equation at the values 0 and 0x20. -/
theorem writePsrEtOnly : Obligations.WritePsrEtOnly := by
  intro s rs1 op hs hp hrd
  have hexec := exec_wrpsr_etRd hs hp hrd
  refine ⟨hexec rs1 op, ⟨_, hexec 0#5 (.imm 0#13), ?_⟩, ⟨_, hexec 0#5 (.imm 0x20#13), ?_⟩⟩
  · rw [State.advance_et, writeValue_r0_imm]
    rfl
  · rw [State.advance_et, writeValue_r0_imm]
    rfl

end Sys2Proof.Machine.Psr

namespace Sys2Proof.Machine

/-! ## The priority encoder and the IRL latch (spec/60_exceptions.md R582) -/

/-- The first match in a decreasing list is its greatest match. -/
theorem le_of_find?_of_decreasing {l : List Nat} (hl : l.Pairwise (· > ·)) {p : Nat → Bool} {j x : Nat}
    (hj : l.find? p = some j) (hx : x ∈ l) (hp : p x = true) : x ≤ j := by
  obtain ⟨-, before, rest, rfl, hbefore⟩ := List.find?_eq_some_iff_append.mp hj
  obtain ⟨-, htail, -⟩ := List.pairwise_append.mp hl
  rcases List.mem_append.mp hx with hskipped | hfrom
  · exact absurd (hbefore x hskipped) (by simp [hp])
  · rcases List.mem_cons.mp hfrom with rfl | hrest
    · exact le_rfl
    · exact (List.rel_of_pairwise_cons htail hrest).le

/-- The channels in the order in which `highest` examines them: IRQ15 has the highest priority and IRQ1 the lowest. -/
def encoderChannels : List Nat := [15, 14, 13, 12, 11, 10, 9, 8, 7, 6, 5, 4, 3, 2, 1]

theorem mem_encoderChannels {x : Nat} : x ∈ encoderChannels ↔ 1 ≤ x ∧ x ≤ 15 := by
  simp only [encoderChannels, List.mem_cons, List.not_mem_nil, or_false]
  omega

theorem encoderChannels_decreasing : encoderChannels.Pairwise (· > ·) := by decide

/-- A channel number fits the encoder's four bits, so the encoder answers the channel it finds. -/
theorem highest_toNat_of_find?_some {p : Nat → Bool} {j : Nat} (hj : encoderChannels.find? p = some j) :
    (highest p).toNat = j := by
  have hrange : 1 ≤ j ∧ j ≤ 15 := mem_encoderChannels.mp (List.mem_of_find?_eq_some hj)
  rw [encoderChannels] at hj
  simp only [highest, hj, BitVec.toNat_ofNat]
  omega

theorem highest_of_find?_none {p : Nat → Bool} (hp : encoderChannels.find? p = none) : highest p = 0#4 := by
  rw [encoderChannels] at hp
  simp only [highest, hp]

/-- No channel that satisfies `p` is above the encoder's answer. -/
theorem le_highest {p : Nat → Bool} {x : Nat} (h1 : 1 ≤ x) (h15 : x ≤ 15) (hp : p x = true) : x ≤ (highest p).toNat := by
  have hx : x ∈ encoderChannels := mem_encoderChannels.mpr ⟨h1, h15⟩
  cases hfind : encoderChannels.find? p with
  | none => exact absurd hp (List.find?_eq_none.mp hfind x hx)
  | some j =>
    rw [highest_toNat_of_find?_some hfind]
    exact le_of_find?_of_decreasing encoderChannels_decreasing hfind hx hp

/-- An answer other than 0 is a channel that satisfies `p`. -/
theorem highest_eq_zero_or (p : Nat → Bool) : highest p = 0#4 ∨ p (highest p).toNat = true := by
  cases hfind : encoderChannels.find? p with
  | none => exact .inl (highest_of_find?_none hfind)
  | some j =>
    rw [highest_toNat_of_find?_some hfind]
    exact .inr (List.find?_some hfind)

/-- Settles O56: the encoder is `highest` over the channels that are latched and not masked, and the level is the latch
behind MKIRL. -/
theorem interruptLevel : Obligations.InterruptLevel := by
  intro u
  refine ⟨fun x h1 h15 hlatched hunmasked => ?highest, ?requested, ?level⟩
  case highest => exact le_highest h1 h15 (by rw [hlatched, hunmasked]; rfl)
  case requested =>
    refine (highest_eq_zero_or fun x => u.irqLatch.getLsbD x && !u.mask.getLsbD x).imp_right fun hrequest => ?_
    rwa [Bool.and_eq_true, Bool.not_eq_true'] at hrequest
  case level => rfl

end Sys2Proof.Machine

namespace Sys2Proof.Machine

/-! ## Every step keeps the invariant -/

/-- What an intermediate state of the same implementation keeps, the state before it keeps. -/
theorem Keeps.of_cfg {s t : State} {o : Host.Outcome State Fault Refusal} (h : Keeps t o) (hc : t.cfg = s.cfg) : Keeps s o :=
  fun u hu => ⟨(h u hu).1, (h u hu).2.trans hc⟩

/-- Enabling traps keeps the invariant outside error mode (spec/60_exceptions.md R505). -/
theorem Inv.setEt {s : State} (h : Inv s) (he : s.errorMode = false) (b : Bool) : Inv { s with et := b } := by
  obtain ⟨h1, h2, h3, h4, h5, h6, h7, h8, h9, h10, h11, h12, h13, h14, -⟩ := h
  refine ⟨h1, h2, h3, h4, h5, h6, h7, h8, h9, h10, h11, h12, h13, h14, fun e => ?_⟩
  exact absurd (he.symm.trans e) Bool.false_ne_true

/-- What RETT does when it does not trap keeps the invariant outside error mode: the target is aligned, the next window a
window. -/
theorem Inv.returnFromTrap {s : State} (h : Inv s) (he : s.errorMode = false) {target : Word} (ht : target.toNat % 4 = 0) :
    Inv (s.returnFromTrap target) :=
  Inv.transfer (s := { s with cwp := s.nextWindow, et := true }) ((h.setEt he true).setCwp h.nextWindow_lt) ht

theorem Inv.flushWord {s : State} (h : Inv s) (ea : Word) : Inv (s.flushWord ea) ∧ (s.flushWord ea).cfg = s.cfg := by
  obtain ⟨pa, -, hf⟩ | ⟨-, hf⟩ := s.flushWord_spec ea
  · exact hf ▸ ⟨h, rfl⟩
  · exact hf ▸ ⟨h, rfl⟩

theorem keeps_rett {s : State} (h : Inv s) (he : s.errorMode = false) (rs1 : RegNum) (op : Operand2) :
    Keeps s (execRett rs1 op s) := by
  have trap (tt : TrapType) : Keeps s (takeTrap s tt) := keeps_trap h rfl
  refine keeps_controlTransfer (keeps_ite (fun _ => keeps_ite (fun _ => trap _) fun _ => trap _) fun _ => ?_)
  refine keeps_ite (fun _ => trap _) fun _ => keeps_ite (fun _ => trap _) fun _ => keeps_ite (fun _ => trap _) fun ha => ?_
  exact keeps_next (h.returnFromTrap he (misaligned_false (by simpa using ha))) rfl

theorem keeps_jmpl {s : State} (h : Inv s) (rd rs1 : RegNum) (op : Operand2) : Keeps s (execJmpl rd rs1 op s) := by
  refine keeps_controlTransfer (keeps_ite (fun _ => keeps_trap h rfl) fun ha => ?_)
  exact keeps_next ((h.setReg rd s.pc).transfer (misaligned_false (by simpa using ha))) (by simp)

theorem keeps_rdasr {s : State} (h : Inv s) (rd rs1 : RegNum) : Keeps s (execRdasr rd rs1 s) := by
  have result (x : Word) : Keeps s (writeResult s rd x) := keeps_result h rfl
  refine keeps_ite (fun _ => keeps_privileged h (result _)) fun _ => keeps_ite (fun _ => result _) fun _ => ?_
  refine keeps_ite (fun _ => result _) fun _ => keeps_ite (fun _ => result _) fun _ => ?_
  exact keeps_ite (fun _ => keeps_privileged h (result _)) fun _ => keeps_trap h rfl

theorem keeps_wrasr {s : State} (h : Inv s) (rd rs1 : RegNum) (op : Operand2) : Keeps s (execWrasr rd rs1 op s) := by
  refine keeps_ite (fun _ => keeps_privileged h (keeps_next h.advance rfl)) fun _ => ?_
  refine keeps_ite (fun _ => keeps_next (h.setAccHi _).advance rfl) fun _ => ?_
  refine keeps_ite (fun _ => keeps_next h.advance rfl) fun _ => keeps_ite (fun _ => keeps_next h.advance rfl) fun _ => ?_
  refine keeps_ite (fun _ => keeps_privileged h ?awp) fun _ => keeps_trap h rfl
  case awp => exact keeps_ite (fun _ => keeps_next h.advance rfl) fun _ => keeps_refused

theorem keeps_wrpsr {s : State} (h : Inv s) (he : s.errorMode = false) (rd rs1 : RegNum) (op : Operand2) :
    Keeps s (execWrpsr rd rs1 op s) := by
  refine keeps_privileged h (keeps_ite (fun _ => ?full) fun _ => keeps_ite (fun _ => ?et) fun _ => keeps_refused)
  case full =>
    refine keeps_ite (fun _ => keeps_trap h rfl) fun hx => ?_
    exact keeps_next (h.setPsr he (Nat.lt_of_not_le hx)).advance rfl
  case et => exact keeps_next (h.setEt he _).advance rfl

/-- Every instruction, executed outside error mode. -/
theorem keeps_exec {s : State} (h : Inv s) (he : s.errorMode = false) (i : Instr) : Keeps s (exec i s) := by
  have loads := keeps_loadSequences h
  have stores := keeps_storeSequences h
  cases i with
  | call d =>
    have target : Inv ((s.setReg 15#5 s.pc).transfer (callTarget s.pc d)) :=
      (h.setReg 15#5 s.pc).transfer (callTarget_aligned h.pc_aligned d)
    exact keeps_controlTransfer (keeps_next target (by simp))
  | ba a d =>
    exact keeps_controlTransfer (keeps_ite (fun _ => keeps_next (h.jump (branchTarget_aligned h.pc_aligned d)) rfl)
      fun _ => keeps_next (h.transfer (branchTarget_aligned h.pc_aligned d)) rfl)
  | bn => exact keeps_controlTransfer (keeps_ite (fun _ => keeps_next h.skip rfl) fun _ => keeps_next h.advance rfl)
  | bne | be | bg | ble | bge | bl | bgu | bleu | bcc | bcs | bpos | bneg | bvc | bvs =>
    exact keeps_conditionalBranch h _ _ _
  | unimp | fbfcc | cbccc | fpop1 | fpop2 | cpop1 | cpop2 | ldf | ldfsr | lddf | stf | stfsr | stdf | ldc | ldcsr | lddc
  | stc | stcsr | stdc => exact keeps_trap h rfl
  | stdfq | stdcq => exact keeps_privileged h (keeps_trap h rfl)
  | sethi | add | addx | sub | subx | and | andn | or | orn | xor | xnor | sll | srl | sra | scan | rdy =>
    exact keeps_result h rfl
  | addcc | addxcc | subcc | subxcc | andcc | andncc | orcc | orncc | xorcc | xnorcc | taddcc | tsubcc =>
    exact keeps_resultCc h rfl
  | taddccTV | tsubccTV => exact keeps_tagged h _ _ _
  | mulscc | divscc => exact keeps_resultCc (t := { s with y := _ }) h rfl
  | umul | smul => exact keeps_result (h.setProduct _ _) rfl
  | umulcc | smulcc => exact keeps_resultCc (h.setProduct _ _) rfl
  | udiv | sdiv => exact keeps_divide h (keeps_result h rfl)
  | udivcc | sdivcc => exact keeps_divide h (keeps_resultCc h rfl)
  | umac | smac => exact (keeps_mac h _ _ _ _).1
  | umaccc | smaccc => exact (keeps_mac h _ _ _ _).2
  | save => exact keeps_shiftWindow h h.prevWindow_lt _ _ _ _
  | restore => exact keeps_shiftWindow h h.nextWindow_lt _ _ _ _
  | jmpl rd rs1 op => exact keeps_jmpl h rd rs1 op
  | rett rs1 op => exact keeps_rett h he rs1 op
  | ta rs1 op => exact keeps_trapOn h true rs1 op
  | tn rs1 op => exact keeps_trapOn h false rs1 op
  | tne | te | tg | tle | tge | tl | tgu | tleu | tcc | tcs | tpos | tneg | tvc | tvs => exact keeps_trapOn h _ _ _
  | stbar => exact keeps_next h.advance rfl
  | rdasr rd rs1 => exact keeps_rdasr h rd rs1
  | rdpsr | rdwim | rdtbr => exact keeps_privileged h (keeps_result h rfl)
  | wry => exact keeps_next (Inv.advance (s := { s with y := _ }) h) rfl
  | wrasr rd rs1 op => exact keeps_wrasr h rd rs1 op
  | wrpsr rd rs1 op => exact keeps_wrpsr h he rd rs1 op
  | wrwim => exact keeps_privileged h (keeps_next (h.setWim _).advance rfl)
  | wrtbr => exact keeps_privileged h (keeps_next (Inv.advance (s := { s with tba := _ }) h) rfl)
  | flush => exact keeps_next (h.flushWord _).1.advance (h.flushWord _).2
  | ldsb => exact (loads _ _ _).1
  | ldub => exact (loads _ _ _).2.1
  | ldsh => exact (loads _ _ _).2.2.1
  | lduh => exact (loads _ _ _).2.2.2.1
  | ld => exact (loads _ _ _).2.2.2.2.1
  | ldd => exact (loads _ _ _).2.2.2.2.2
  | stb => exact (stores _ _ _).1
  | sth => exact (stores _ _ _).2.1
  | st => exact (stores _ _ _).2.2.1
  | std => exact (stores _ _ _).2.2.2.1
  | ldstub => exact (stores _ _ _).2.2.2.2.1
  | swap => exact (stores _ _ _).2.2.2.2.2
  | ldsba => exact keeps_whenAsiAllowed h (loads _ _ _).1
  | lduba => exact keeps_whenAsiAllowed h (loads _ _ _).2.1
  | ldsha => exact keeps_whenAsiAllowed h (loads _ _ _).2.2.1
  | lduha => exact keeps_whenAsiAllowed h (loads _ _ _).2.2.2.1
  | lda => exact keeps_whenAsiAllowed h (loads _ _ _).2.2.2.2.1
  | ldda => exact keeps_whenAsiAllowed h (loads _ _ _).2.2.2.2.2
  | stba => exact keeps_whenAsiAllowed h (stores _ _ _).1
  | stha => exact keeps_whenAsiAllowed h (stores _ _ _).2.1
  | sta => exact keeps_whenAsiAllowed h (stores _ _ _).2.2.1
  | stda => exact keeps_whenAsiAllowed h (stores _ _ _).2.2.2.1
  | ldstuba => exact keeps_whenAsiAllowed h (stores _ _ _).2.2.2.2.1
  | swapa => exact keeps_whenAsiAllowed h (stores _ _ _).2.2.2.2.2

/-- A fetch that succeeds has done no more than a translation. -/
theorem fetch_ok {s t : State} {w : Word} (h : fetch s = .ok w t) : OnlyTranslation s t := by
  obtain ⟨pa, u, hl, hf⟩ := Access.bind_eq_ok h
  obtain ⟨honly, -⟩ := locate_ok hl
  split at hf
  · cases hf
  · split at hf
    · cases hf
    · cases hf
      exact honly

theorem keeps_runDecoded {s : State} (h : Inv s) (he : s.errorMode = false) (d : Decoded) : Keeps s (runDecoded s d) := by
  cases d with
  | instr i => exact keeps_exec h he i
  | illegal | altImmediate => exact keeps_trap h rfl
  | reserved => exact keeps_refused

theorem keeps_runInstruction {s : State} (h : Inv s) (he : s.errorMode = false) : Keeps s (runInstruction s) := by
  obtain ⟨hok, htrap⟩ := keeps_fetch h
  unfold runInstruction
  split
  case h_1 w t hf =>
    obtain ⟨hinv, hcfg⟩ := hok w t hf
    have hmode : t.errorMode = false := by rw [fetch_ok hf]; exact he
    exact (keeps_runDecoded hinv hmode _).of_cfg hcfg
  case h_2 tt t hf => exact keeps_trap (htrap tt t hf).1 (htrap tt t hf).2
  case h_3 => exact keeps_fault
  case h_4 => exact keeps_refused

theorem keeps_processorStep {s : State} (h : Inv s) : Keeps s (processorStep s) := by
  refine keeps_ite (fun _ => keeps_next h rfl) fun he => ?_
  refine keeps_ite (fun _ => keeps_trap (t := { s with inject := none }) h rfl) fun _ => ?_
  refine keeps_ite (fun _ => keeps_next (h.enterTrap _) (by simp [State.enterTrap])) fun _ => ?_
  exact keeps_runInstruction h (by simpa using he)

/-- Settles O50: the invariant says nothing of the schedule, so the processor's step and every event keep it from the state
without the head of the schedule. -/
theorem stepKeepsInvariant : Obligations.StepKeepsInvariant := by
  intro s t h hstep
  have taken (rest : List Event) : Inv { s with env := rest } := h
  revert t
  change Keeps s (step s)
  unfold step
  split
  case h_1 => exact keeps_processorStep h
  case h_2 rest _ => exact (keeps_processorStep (taken rest)).of_cfg rfl
  case h_3 e rest _ _ => exact (keeps_applyEvent (taken rest) e).of_cfg rfl

end Sys2Proof.Machine

namespace Sys2Proof.Machine

/-! ## No user-mode instruction changes a privileged register but by a trap (spec/60_exceptions.md R505, R510, R531) -/

/-- What may follow a user-mode state: the privileged registers as before, a trap handler entered, or error mode. -/
def UserStep (s t : State) : Prop :=
  SamePrivileged s t
  ∨ (s.et = true ∧ t.sup = true ∧ t.et = false ∧ t.ps = false ∧ t.pc.toNat = handlerAddress s t.tt ∧ t.pil = s.pil
    ∧ t.wim = s.wim ∧ t.tba = s.tba ∧ t.svt = s.svt ∧ t.awpReg = s.awpReg ∧ t.errorMode = s.errorMode
    ∧ t.mmuEnable = s.mmuEnable ∧ t.mmuNoFault = s.mmuNoFault ∧ t.ctp = s.ctp ∧ t.ctx = s.ctx)
  ∨ (s.et = false ∧ t.errorMode = true ∧ SamePrivileged s { t with tt := s.tt, errorMode := s.errorMode })

/-- The privileged registers and the implementation are the same. -/
def SameMode (s t : State) : Prop := t.cfg = s.cfg ∧ SamePrivileged s t

theorem SameMode.refl (s : State) : SameMode s s := by simp [SameMode, SamePrivileged]

theorem SameMode.trans {s t u : State} (h1 : SameMode s t) (h2 : SameMode t u) : SameMode s u := by
  simp only [SameMode, SamePrivileged] at *
  simp only [h2, h1, and_self]

theorem SameMode.sup {s t : State} (h : SameMode s t) : t.sup = s.sup := h.2.1

theorem SameMode.setReg {s t : State} (h : SameMode s t) (r : RegNum) (x : Word) : SameMode s (t.setReg r x) :=
  h.trans (by simp [SameMode, SamePrivileged])

theorem SameMode.setIcc {s t : State} (h : SameMode s t) (f : Icc) : SameMode s (t.setIcc f) :=
  h.trans (by simp [SameMode, SamePrivileged])

theorem SameMode.advance {s t : State} (h : SameMode s t) : SameMode s t.advance := h

theorem SameMode.transfer {s t : State} (h : SameMode s t) (x : Word) : SameMode s (t.transfer x) := h

theorem OnlyTranslation.sameMode {s t : State} (h : OnlyTranslation s t) : SameMode s t := by
  rw [h]
  exact SameMode.refl s

/-- What an outcome may be in user mode. -/
def Protects (s : State) (o : Host.Outcome State Fault Refusal) : Prop := ∀ t, o = .next t → UserStep s t

theorem protects_next {s t : State} (h : SameMode s t) : Protects s (.next t) := by
  intro u hu
  cases hu
  exact .inl h.2

theorem protects_refused {s : State} {r : Refusal} : Protects s (.refused r) := by intro u hu; cases hu

theorem protects_fault {s : State} {r : Fault} : Protects s (.fault r) := by intro u hu; cases hu

theorem handlerAddress_congr {s t : State} (h : SameMode s t) (tt : TrapType) : handlerAddress t tt = handlerAddress s tt := by
  obtain ⟨hcfg, -, -, -, -, -, -, -, htba, -, hsvt, -⟩ := h
  simp only [handlerAddress, hcfg, htba, hsvt]

/-- A synchronous trap in user mode: the handler in supervisor mode, or error mode (R505, R510). -/
theorem protects_trap {s t : State} (hs : s.sup = false) (h : SameMode s t) (tt : TrapType) : Protects s (takeTrap t tt) := by
  intro u hu
  cases hu
  have haddr := handlerAddress_congr h
  obtain ⟨-, hsup, hps, het, hpil, haw, hpaw, hwim, htba, htt, hsvt, hawp, herr, hen, hnf, hctp, hctx⟩ := h
  obtain ⟨he, -, htaken⟩ | ⟨he, hraise⟩ := t.raise_spec tt
  · obtain ⟨hpc, -, het', hps', hsup', -, -, -, htt', -, -, -, hframe⟩ := htaken
    refine .inr (.inl ⟨het ▸ he, hsup', het', by rw [hps', hsup, hs], by rw [hpc, htt', haddr], ?_⟩)
    rw [hframe]
    exact ⟨hpil, hwim, htba, hsvt, hawp, herr, hen, hnf, hctp, hctx⟩
  · refine .inr (.inr ⟨het ▸ he, by rw [hraise], ?_⟩)
    rw [hraise]
    exact ⟨hsup, hps, het, hpil, haw, hpaw, hwim, htba, rfl, hsvt, hawp, rfl, hen, hnf, hctp, hctx⟩

theorem protects_ite {s : State} {p : Prop} [Decidable p] {a b : Host.Outcome State Fault Refusal} (ha : p → Protects s a)
    (hb : ¬p → Protects s b) : Protects s (if p then a else b) := by
  split
  case isTrue h => exact ha h
  case isFalse h => exact hb h

/-- The privilege check stops a privileged instruction (R531). -/
theorem protects_privileged {s : State} (hs : s.sup = false) (k : Host.Outcome State Fault Refusal) :
    Protects s (privileged s k) :=
  protects_ite (fun h => absurd (hs.symm.trans h) Bool.false_ne_true) fun _ => protects_trap hs (.refl s) _

theorem protects_result {s t : State} (h : SameMode s t) (rd : RegNum) (x : Word) : Protects s (writeResult t rd x) :=
  protects_next (h.setReg rd x).advance

theorem protects_resultCc {s t : State} (h : SameMode s t) (rd : RegNum) (x : Word) (f : Icc) :
    Protects s (writeResultCc t rd x f) :=
  protects_next ((h.setReg rd x).setIcc f).advance

/-! ### Accesses -/

/-- An access that, where it succeeds or traps, leaves the privileged registers as they were. -/
def AccessProtects {α : Type} (s : State) (x : Access α) : Prop :=
  (∀ a t, x = .ok a t → SameMode s t) ∧ (∀ tt t, x = .trap tt t → SameMode s t)

theorem accessProtects_ok {α : Type} {s t : State} {a : α} (h : SameMode s t) : AccessProtects s (.ok a t) :=
  ⟨fun _ _ e => (by cases e; exact h), fun _ _ e => (by cases e)⟩

theorem accessProtects_trap {α : Type} {s t : State} {tt : TrapType} (h : SameMode s t) :
    AccessProtects s (.trap tt t : Access α) :=
  ⟨fun _ _ e => (by cases e), fun _ _ e => (by cases e; exact h)⟩

theorem accessProtects_fault {α : Type} {s : State} {r : Fault} : AccessProtects s (.fault r : Access α) :=
  ⟨fun _ _ e => (by cases e), fun _ _ e => (by cases e)⟩

theorem accessProtects_refused {α : Type} {s : State} {r : Refusal} : AccessProtects s (.refused r : Access α) :=
  ⟨fun _ _ e => (by cases e), fun _ _ e => (by cases e)⟩

theorem accessProtects_bind {α β : Type} {s : State} {x : Access α} {k : α → State → Access β} (h : AccessProtects s x)
    (hk : ∀ a t, x = .ok a t → SameMode s t → AccessProtects s (k a t)) : AccessProtects s (x.bind k) := by
  cases x with
  | ok a t => exact hk a t rfl (h.1 a t rfl)
  | trap tt t => exact accessProtects_trap (h.2 tt t rfl)
  | fault r => exact accessProtects_fault
  | refused r => exact accessProtects_refused

/-- An access from an intermediate state. -/
theorem AccessProtects.of_sameMode {α : Type} {s t : State} {x : Access α} (h : AccessProtects t x) (ht : SameMode s t) :
    AccessProtects s x :=
  ⟨fun a u e => ht.trans (h.1 a u e), fun a u e => ht.trans (h.2 a u e)⟩

theorem protects_outcome {α : Type} {s : State} (hs : s.sup = false) {x : Access α} {k : α → State → State}
    (h : AccessProtects s x) (hk : ∀ a t, SameMode s t → SameMode s (k a t)) : Protects s (x.outcome k) := by
  cases x with
  | ok a t => exact protects_next (hk a t (h.1 a t rfl))
  | trap tt t => exact protects_trap hs (h.2 tt t rfl) tt
  | fault r => exact protects_fault
  | refused r => exact protects_refused

theorem protects_locate (s : State) (va : Word) (asi : Asi) (kind : AccessKind) :
    AccessProtects s (locate s va asi kind) := by
  have translated : AccessProtects s (Machine.translate s va asi kind) :=
    ⟨fun _ _ h => (translate_ok h).1.sameMode, fun _ _ h => by rw [translate_trap h]; exact SameMode.refl s⟩
  refine accessProtects_bind translated fun a t _ ht => ?_
  split
  · exact accessProtects_ok ht
  · exact accessProtects_fault

theorem protects_memoryPlace {s t : State} (h : SameMode s t) (pa : Nat) : AccessProtects s (memoryPlace t pa) := by
  unfold memoryPlace
  split
  · exact accessProtects_trap h
  · exact accessProtects_ok h

theorem protects_resolve (s : State) (asi : Asi) (ea : Word) (kind : AccessKind) :
    AccessProtects s (resolve s asi ea kind) := by
  unfold resolve
  split
  · exact accessProtects_bind (protects_locate s ea asi kind) fun pa t _ ht => protects_memoryPlace ht pa
  split
  · dsimp only
    split
    · exact protects_memoryPlace (.refl s) _
    · exact accessProtects_fault
  split
  · exact accessProtects_ok (.refl s)
  · exact accessProtects_refused

theorem protects_asMemory {s : State} {x : Access Place} (h : AccessProtects s x) : AccessProtects s (asMemory x) :=
  accessProtects_bind h fun p t _ ht => by
    cases p with
    | memory pa => exact accessProtects_ok ht
    | register r => exact accessProtects_refused

/-- A register place comes from the assignment of registers to addresses, outside the memory spaces, and nothing is done
to reach it. -/
theorem resolve_register {s t : State} {asi : Asi} {ea : Word} {kind : AccessKind} {r : Register}
    (h : resolve s asi ea kind = .ok (.register r) t) : isMemoryAsi asi = false ∧ registerAt s.cfg asi ea = some r ∧ t = s := by
  have place {u : State} {pa : Nat} : memoryPlace u pa ≠ .ok (.register r) t := by
    unfold memoryPlace
    split <;> simp
  unfold resolve at h
  split at h
  · obtain ⟨_, _, -, h⟩ := Access.bind_eq_ok h
    exact absurd h place
  rename_i hm
  split at h
  · dsimp only at h
    split at h
    · exact absurd h place
    · cases h
  split at h
  · rename_i hr
    cases h
    exact ⟨by simpa using hm, hr, rfl⟩
  · cases h

/-- The MMU's registers lie in ASI 4 alone (spec/20_memory.md R134). -/
theorem registerAt_mmu {c : Config} {asi : Asi} {ea ea' : Word} (h : registerAt c asi ea = some (.mmu ea')) : asi = 0x04#8 := by
  have handler : handlerRegisterAt c asi ea ≠ some (.mmu ea') := by
    unfold handlerRegisterAt
    dsimp only
    repeat' split
    all_goals simp
  have iirc : iircRegisterAt c asi ea ≠ some (.mmu ea') := by
    unfold iircRegisterAt
    repeat' split
    all_goals simp
  have ppg : ppgRegisterAt c asi ea ≠ some (.mmu ea') := by
    unfold ppgRegisterAt
    repeat' split
    all_goals simp
  have counter : counterRegisterAt c asi ea ≠ some (.mmu ea') := by
    unfold counterRegisterAt
    repeat' split
    all_goals simp
  have timer : timerRegisterAt c asi ea ≠ some (.mmu ea') := by
    unfold timerRegisterAt
    repeat' split
    all_goals simp
  simp only [registerAt, Option.or_eq_some_iff, handler, iirc, ppg, counter, timer, and_false, or_false] at h
  unfold mmuRegisterAt at h
  repeat' split at h
  all_goals first | assumption | cases h

theorem protects_loadOrFree (s : State) (o : Option Word) : AccessProtects s (loadOrFree s o) := by
  cases o with
  | none => exact accessProtects_ok (SameMode.refl s)
  | some w => exact accessProtects_ok (.refl s)

/-- A load of a register changes no privileged register; of the MMU's it changes FSR alone. -/
theorem protects_readRegister (s : State) (r : Register) : AccessProtects s (readRegister s r) := by
  have here {α : Type} {a : α} : AccessProtects s (.ok a s) := accessProtects_ok (.refl s)
  cases r with
  | mmu ea =>
    simp only [readRegister, readMmuRegister]
    repeat' split
    all_goals first | exact accessProtects_ok (SameMode.refl s) | exact accessProtects_refused
  | flushProbe ea =>
    show AccessProtects s (readProbe s ea)
    obtain ⟨w, hp⟩ | hp | ⟨r, hp⟩ := readProbe_cases s ea
    · exact hp ▸ here
    · exact hp ▸ accessProtects_ok (SameMode.refl s)
    · exact hp ▸ accessProtects_refused
  | descriptor n k =>
    simp only [readRegister, readDescriptor]
    split
    · exact accessProtects_refused
    · exact here
  | handler slot =>
    simp only [readRegister]
    split
    · exact here
    · exact accessProtects_refused
  | group n => exact here
  | iirc u offset | ppg n offset | counter i preload =>
    simp only [readRegister]
    split
    · exact protects_loadOrFree s _
    · exact accessProtects_refused
  | sysctl => exact here
  | timer n offset =>
    simp only [readRegister, loadTimer]
    split
    · unfold Access.ofExcept
      split
      · exact accessProtects_ok (SameMode.refl s)
      · exact accessProtects_refused
    · exact accessProtects_refused

/-- A store to a register that is none of the MMU's changes no privileged register. -/
theorem protects_writeRegister (s : State) {r : Register} (hr : ∀ ea, r ≠ .mmu ea) (x : Word) :
    AccessProtects s (writeRegister s r x) := by
  cases r with
  | mmu ea => exact absurd rfl (hr ea)
  | flushProbe ea => exact accessProtects_ok (SameMode.refl s)
  | descriptor n k =>
    simp only [writeRegister, writeDescriptor]
    split
    · exact accessProtects_refused
    · exact accessProtects_ok (SameMode.refl s)
  | handler slot | iirc u offset | counter i preload =>
    simp only [writeRegister]
    split
    · exact accessProtects_ok (SameMode.refl s)
    · exact accessProtects_refused
  | group n => exact accessProtects_ok (.refl s)
  | ppg n offset =>
    simp only [writeRegister]
    split
    · unfold Access.ofExcept
      split
      · exact accessProtects_ok (SameMode.refl s)
      · exact accessProtects_refused
    · exact accessProtects_refused
  | sysctl => exact accessProtects_ok (SameMode.refl s)
  | timer n offset =>
    simp only [writeRegister, storeTimer]
    split
    · unfold Access.ofExcept
      split
      · exact accessProtects_ok (SameMode.refl s)
      · exact accessProtects_refused
    · exact accessProtects_refused

theorem protects_loads (s : State) (asi : Asi) (ea : Word) :
    AccessProtects s (loadByte s asi ea) ∧ AccessProtects s (loadHalf s asi ea) ∧ AccessProtects s (loadWord s asi ea)
    ∧ AccessProtects s (loadDouble s asi ea) := by
  have hr := protects_resolve s asi ea .load
  refine ⟨?byte, ?half, ?word, ?double⟩
  case byte | half => exact accessProtects_bind (protects_asMemory hr) fun _ _ _ ht => accessProtects_ok ht
  case word =>
    refine accessProtects_bind hr fun p t _ ht => ?_
    cases p with
    | memory pa => exact accessProtects_ok ht
    | register r => exact (protects_readRegister t r).of_sameMode ht
  case double =>
    refine accessProtects_bind hr fun p t _ ht => ?_
    split
    · exact accessProtects_ok ht
    · refine accessProtects_bind ((protects_readRegister t _).of_sameMode ht) fun _ u _ hu => ?_
      exact accessProtects_bind ((protects_readRegister u _).of_sameMode hu) fun _ _ _ hv => accessProtects_ok hv
    · exact accessProtects_refused

/-- The writes of each width, outside the address space of the MMU's registers. -/
theorem protects_puts (s : State) {asi : Asi} (ha : asi ≠ 0x04#8) (ea : Word) :
    (∀ x, AccessProtects s (putByte s asi ea x)) ∧ (∀ x, AccessProtects s (putHalf s asi ea x))
    ∧ (∀ x, AccessProtects s (putWord s asi ea x)) ∧ (∀ x y, AccessProtects s (putDouble s asi ea x y))
    ∧ AccessProtects s (testAndSet s asi ea) ∧ ∀ x, AccessProtects s (exchange s asi ea x) := by
  have memory {α : Type} (kind : AccessKind) {k : Nat → State → Access α}
      (hk : ∀ a t, SameMode s t → AccessProtects s (k a t)) : AccessProtects s ((asMemory (resolve s asi ea kind)).bind k) :=
    accessProtects_bind (protects_asMemory (protects_resolve s asi ea kind)) fun a t _ ht => hk a t ht
  refine ⟨fun x => ?byte, fun x => ?half, fun x => ?word, fun x y => ?double, ?set, fun x => ?swap⟩
  case byte | half | set | swap => exact memory _ fun _ _ ht => accessProtects_ok ht
  case word =>
    refine accessProtects_bind (protects_resolve s asi ea .store) fun p t hp ht => ?_
    cases p with
    | memory pa => exact accessProtects_ok ht
    | register r =>
      obtain ⟨-, hreg, -⟩ := resolve_register hp
      have hr (ea' : Word) : r ≠ .mmu ea' := fun e => ha (registerAt_mmu (e ▸ hreg))
      exact (protects_writeRegister t hr x).of_sameMode ht
  case double =>
    refine accessProtects_bind (protects_resolve s asi ea .store) fun p t _ ht => ?_
    split
    · exact accessProtects_ok ht
    · refine accessProtects_bind ((protects_writeRegister t (by simp) x).of_sameMode ht) fun _ u _ hu => ?_
      exact (protects_writeRegister u (by simp) y).of_sameMode hu
    · exact accessProtects_refused

/-! ### The shared sequences of the loads and stores -/

theorem protects_whenAligned {s : State} (hs : s.sup = false) {ea : Word} {n : Nat} {k : Host.Outcome State Fault Refusal}
    (hk : Protects s k) : Protects s (whenAligned s ea n k) :=
  protects_ite (fun _ => hk) fun _ => protects_trap hs (.refl s) _

theorem protects_whenEven {s : State} (hs : s.sup = false) {rd : RegNum} {k : Host.Outcome State Fault Refusal}
    (hk : Protects s k) : Protects s (whenEven s rd k) :=
  protects_ite (fun _ => protects_trap hs (.refl s) _) fun _ => hk

/-- In user mode an address space below 0x80, so the one of the MMU's registers too, is not reached
(spec/44_alternate_space.md R310). -/
theorem protects_whenAsiAllowed {s : State} (hs : s.sup = false) {asi : Asi} {k : Host.Outcome State Fault Refusal}
    (hk : asi ≠ 0x04#8 → Protects s k) : Protects s (whenAsiAllowed s asi k) := by
  refine protects_ite (fun _ => protects_trap hs (.refl s) _) fun h => hk ?_
  rintro rfl
  exact h (by simp [hs])

theorem protects_loadSequences {s : State} (hs : s.sup = false) (rd : RegNum) (asi : Asi) (ea : Word) :
    Protects s (loadSignedByte s rd asi ea) ∧ Protects s (loadUnsignedByte s rd asi ea)
    ∧ Protects s (loadSignedHalf s rd asi ea) ∧ Protects s (loadUnsignedHalf s rd asi ea)
    ∧ Protects s (loadToRegister s rd asi ea) ∧ Protects s (loadToPair s rd asi ea) := by
  obtain ⟨hbyte, hhalf, hword, hdouble⟩ := protects_loads s asi ea
  refine ⟨?_, ?_, protects_whenAligned hs ?_, protects_whenAligned hs ?_, protects_whenAligned hs ?_,
    protects_whenEven hs (protects_whenAligned hs ?_)⟩
  · exact protects_outcome hs hbyte fun _ _ ht => (ht.setReg rd _).advance
  · exact protects_outcome hs hbyte fun _ _ ht => (ht.setReg rd _).advance
  · exact protects_outcome hs hhalf fun _ _ ht => (ht.setReg rd _).advance
  · exact protects_outcome hs hhalf fun _ _ ht => (ht.setReg rd _).advance
  · exact protects_outcome hs hword fun _ _ ht => (ht.setReg rd _).advance
  · exact protects_outcome hs hdouble fun _ _ ht => ((ht.setReg rd _).setReg _ _).advance

theorem protects_storeSequences {s : State} (hs : s.sup = false) (rd : RegNum) {asi : Asi} (ha : asi ≠ 0x04#8) (ea : Word) :
    Protects s (storeLowByte s rd asi ea) ∧ Protects s (storeLowHalf s rd asi ea) ∧ Protects s (storeRegister s rd asi ea)
    ∧ Protects s (storePair s rd asi ea) ∧ Protects s (loadAndSet s rd asi ea) ∧ Protects s (swapRegister s rd asi ea) := by
  obtain ⟨hbyte, hhalf, hword, hdouble, hset, hswap⟩ := protects_puts s ha ea
  refine ⟨?_, protects_whenAligned hs ?_, protects_whenAligned hs ?_, protects_whenEven hs (protects_whenAligned hs ?_), ?_,
    protects_whenAligned hs ?_⟩
  · exact protects_outcome hs (hbyte _) fun _ _ ht => ht.advance
  · exact protects_outcome hs (hhalf _) fun _ _ ht => ht.advance
  · exact protects_outcome hs (hword _) fun _ _ ht => ht.advance
  · exact protects_outcome hs (hdouble _ _) fun _ _ ht => ht.advance
  · exact protects_outcome hs hset fun _ _ ht => (ht.setReg rd _).advance
  · exact protects_outcome hs (hswap _) fun _ _ ht => (ht.setReg rd _).advance

/-! ### The instructions -/

theorem protects_controlTransfer {s : State} {k : Host.Outcome State Fault Refusal} (hk : Protects s k) :
    Protects s (controlTransfer s k) :=
  protects_ite (fun _ => protects_refused) fun _ => hk

theorem protects_conditionalBranch (s : State) (taken a : Bool) (d : BitVec 22) :
    Protects s (conditionalBranch taken a d s) :=
  protects_controlTransfer (protects_ite (fun _ => protects_next (SameMode.refl s)) fun _ =>
    protects_ite (fun _ => protects_next (SameMode.refl s)) fun _ => protects_next (SameMode.refl s))

theorem protects_trapOn {s : State} (hs : s.sup = false) (taken : Bool) (rs1 : RegNum) (op : TrapOperand) :
    Protects s (trapOn taken rs1 op s) :=
  protects_ite (fun _ => protects_trap hs (.refl s) _) fun _ => protects_next (SameMode.refl s)

theorem protects_shiftWindow {s : State} (hs : s.sup = false) (w : BitVec 5) (tt : TrapType) (rd rs1 : RegNum)
    (op : Operand2) : Protects s (shiftWindow w tt rd rs1 op s) := by
  refine protects_ite (fun _ => protects_refused) fun _ => protects_ite (fun _ => protects_trap hs (.refl s) _) fun _ => ?_
  exact protects_next (SameMode.setReg (t := { s with cwp := w }) (SameMode.refl s) rd _).advance

theorem protects_jmpl {s : State} (hs : s.sup = false) (rd rs1 : RegNum) (op : Operand2) :
    Protects s (execJmpl rd rs1 op s) :=
  protects_controlTransfer (protects_ite (fun _ => protects_trap hs (.refl s) _) fun _ =>
    protects_next (((SameMode.refl s).setReg rd s.pc).transfer _))

/-- RETT restores nothing in user mode: it traps, or is error mode (spec/46_v8_base_control.md R406). -/
theorem protects_rett {s : State} (hs : s.sup = false) (rs1 : RegNum) (op : Operand2) : Protects s (execRett rs1 op s) := by
  have trap (tt : TrapType) : Protects s (takeTrap s tt) := protects_trap hs (.refl s) tt
  refine protects_controlTransfer (protects_ite (fun _ => protects_ite (fun _ => trap _) fun _ => trap _) fun _ => ?_)
  exact protects_ite (fun _ => trap _) fun h => absurd (by simp [hs]) h

theorem protects_tagged {s : State} (hs : s.sup = false) (rd : RegNum) (x : Word) (f : Icc) :
    Protects s (writeTaggedTrap s rd x f) :=
  protects_ite (fun _ => protects_trap hs (.refl s) _) fun _ => protects_resultCc (.refl s) rd x f

theorem protects_divide {s : State} (hs : s.sup = false) {p : Prop} [Decidable p] {tt : TrapType}
    {k : Host.Outcome State Fault Refusal} (hk : Protects s k) : Protects s (if p then takeTrap s tt else k) :=
  protects_ite (fun _ => protects_trap hs (.refl s) _) fun _ => hk

theorem protects_rdasr {s : State} (hs : s.sup = false) (rd rs1 : RegNum) : Protects s (execRdasr rd rs1 s) := by
  have result (x : Word) : Protects s (writeResult s rd x) := protects_result (.refl s) rd x
  refine protects_ite (fun _ => protects_privileged hs _) fun _ => protects_ite (fun _ => result _) fun _ => ?_
  refine protects_ite (fun _ => result _) fun _ => protects_ite (fun _ => result _) fun _ => ?_
  exact protects_ite (fun _ => protects_privileged hs _) fun _ => protects_trap hs (.refl s) _

/-- WRASR writes the accumulator's registers in user mode, and no other. -/
theorem protects_wrasr {s : State} (hs : s.sup = false) (rd rs1 : RegNum) (op : Operand2) :
    Protects s (execWrasr rd rs1 op s) := by
  have next {t : State} (h : SameMode s t) : Protects s (.next t) := protects_next h
  refine protects_ite (fun _ => protects_privileged hs _) fun _ => protects_ite (fun _ => next (SameMode.refl s)) fun _ => ?_
  refine protects_ite (fun _ => next (SameMode.refl s)) fun _ => protects_ite (fun _ => next (SameMode.refl s)) fun _ => ?_
  exact protects_ite (fun _ => protects_privileged hs _) fun _ => protects_trap hs (.refl s) _

theorem sameMode_flushWord (s : State) (ea : Word) : SameMode s (s.flushWord ea) := by
  obtain ⟨pa, -, hf⟩ | ⟨-, hf⟩ := s.flushWord_spec ea
  · exact hf ▸ SameMode.refl s
  · exact hf ▸ SameMode.refl s

theorem sameMode_setY (s : State) (y : Word) : SameMode s { s with y := y } := SameMode.refl s

theorem sameMode_setProduct (s : State) (p : BitVec 64) (negative : Bool) : SameMode s (s.setProduct p negative) :=
  SameMode.refl s

theorem sameMode_setAccumulator (s : State) (isSigned : Bool) (r : Nat) : SameMode s (s.setAccumulator isSigned r) :=
  SameMode.refl s

/-- Every instruction. -/
theorem protects_exec {s : State} (hs : s.sup = false) (i : Instr) : Protects s (exec i s) := by
  have same := SameMode.refl s
  have data : dataAsi s ≠ 0x04#8 := by simp [dataAsi, hs]
  have loads := protects_loadSequences hs
  have stores := fun rd ea asi (ha : asi ≠ 0x04#8) => protects_storeSequences hs rd ha ea
  cases i with
  | call => exact protects_controlTransfer (protects_next ((same.setReg _ _).transfer _))
  | ba => exact protects_controlTransfer (protects_ite (fun _ => protects_next same) fun _ => protects_next same)
  | bn => exact protects_controlTransfer (protects_ite (fun _ => protects_next same) fun _ => protects_next same)
  | bne | be | bg | ble | bge | bl | bgu | bleu | bcc | bcs | bpos | bneg | bvc | bvs =>
    exact protects_conditionalBranch s _ _ _
  | unimp | fbfcc | cbccc | fpop1 | fpop2 | cpop1 | cpop2 | ldf | ldfsr | lddf | stf | stfsr | stdf | ldc | ldcsr | lddc
  | stc | stcsr | stdc => exact protects_trap hs same _
  | stdfq | stdcq | rdpsr | rdwim | rdtbr | wrpsr | wrwim | wrtbr => exact protects_privileged hs _
  | sethi | add | addx | sub | subx | and | andn | or | orn | xor | xnor | sll | srl | sra | scan | rdy =>
    exact protects_result same _ _
  | addcc | addxcc | subcc | subxcc | andcc | andncc | orcc | orncc | xorcc | xnorcc | taddcc | tsubcc =>
    exact protects_resultCc same _ _ _
  | mulscc | divscc => exact protects_resultCc (sameMode_setY s _) _ _ _
  | umul | smul => exact protects_result (sameMode_setProduct s _ _) _ _
  | umulcc | smulcc => exact protects_resultCc (sameMode_setProduct s _ _) _ _ _
  | taddccTV | tsubccTV => exact protects_tagged hs _ _ _
  | udiv | sdiv => exact protects_divide hs (protects_result same _ _)
  | udivcc | sdivcc => exact protects_divide hs (protects_resultCc same _ _ _)
  | umac | smac => exact protects_result (sameMode_setAccumulator s _ _) _ _
  | umaccc | smaccc => exact protects_resultCc (sameMode_setAccumulator s _ _) _ _ _
  | save | restore => exact protects_shiftWindow hs _ _ _ _ _
  | jmpl rd rs1 op => exact protects_jmpl hs rd rs1 op
  | rett rs1 op => exact protects_rett hs rs1 op
  | ta rs1 op => exact protects_trapOn hs true rs1 op
  | tn rs1 op => exact protects_trapOn hs false rs1 op
  | tne | te | tg | tle | tge | tl | tgu | tleu | tcc | tcs | tpos | tneg | tvc | tvs => exact protects_trapOn hs _ _ _
  | stbar | wry => exact protects_next same
  | rdasr rd rs1 => exact protects_rdasr hs rd rs1
  | wrasr rd rs1 op => exact protects_wrasr hs rd rs1 op
  | flush => exact protects_next (sameMode_flushWord s _).advance
  | ldsb => exact (loads _ _ _).1
  | ldub => exact (loads _ _ _).2.1
  | ldsh => exact (loads _ _ _).2.2.1
  | lduh => exact (loads _ _ _).2.2.2.1
  | ld => exact (loads _ _ _).2.2.2.2.1
  | ldd => exact (loads _ _ _).2.2.2.2.2
  | stb => exact (stores _ _ _ data).1
  | sth => exact (stores _ _ _ data).2.1
  | st => exact (stores _ _ _ data).2.2.1
  | std => exact (stores _ _ _ data).2.2.2.1
  | ldstub => exact (stores _ _ _ data).2.2.2.2.1
  | swap => exact (stores _ _ _ data).2.2.2.2.2
  | ldsba => exact protects_whenAsiAllowed hs fun _ => (loads _ _ _).1
  | lduba => exact protects_whenAsiAllowed hs fun _ => (loads _ _ _).2.1
  | ldsha => exact protects_whenAsiAllowed hs fun _ => (loads _ _ _).2.2.1
  | lduha => exact protects_whenAsiAllowed hs fun _ => (loads _ _ _).2.2.2.1
  | lda => exact protects_whenAsiAllowed hs fun _ => (loads _ _ _).2.2.2.2.1
  | ldda => exact protects_whenAsiAllowed hs fun _ => (loads _ _ _).2.2.2.2.2
  | stba => exact protects_whenAsiAllowed hs fun ha => (stores _ _ _ ha).1
  | stha => exact protects_whenAsiAllowed hs fun ha => (stores _ _ _ ha).2.1
  | sta => exact protects_whenAsiAllowed hs fun ha => (stores _ _ _ ha).2.2.1
  | stda => exact protects_whenAsiAllowed hs fun ha => (stores _ _ _ ha).2.2.2.1
  | ldstuba => exact protects_whenAsiAllowed hs fun ha => (stores _ _ _ ha).2.2.2.2.1
  | swapa => exact protects_whenAsiAllowed hs fun ha => (stores _ _ _ ha).2.2.2.2.2

/-- Settles O54: a user-mode instruction keeps the privileged registers until it traps, and what a trap then does is what
`State.raise` does. -/
theorem userModeProtection : Obligations.UserModeProtection := fun i _ t hs h => protects_exec hs i t h

end Sys2Proof.Machine

namespace Sys2Proof

/-! ## The fields of the encoder's words (spec/30_encoding.md R202 to R205, R217) -/

theorem format3_fields (op : BitVec 2) (rd : RegNum) (op3 : BitVec 6) (rs1 : RegNum) (low : BitVec 14) :
    fieldOp (format3 op rd op3 rs1 low) = op ∧ fieldRd (format3 op rd op3 rs1 low) = rd
    ∧ fieldOp3 (format3 op rd op3 rs1 low) = op3 ∧ fieldRs1 (format3 op rd op3 rs1 low) = rs1 := by
  rw [fieldOp, fieldRd, fieldOp3, fieldRs1, format3]
  simp [-Nat.reduceAdd, BitVec.extractLsb'_append_eq_of_le, BitVec.extractLsb'_append_eq_of_add_le]

/-- A field of the last 14 bits. -/
theorem format3_extract (op : BitVec 2) (rd : RegNum) (op3 : BitVec 6) (rs1 : RegNum) (low : BitVec 14) {start len : Nat}
    (h : start + len ≤ 14) : (format3 op rd op3 rs1 low).extractLsb' start len = low.extractLsb' start len :=
  BitVec.extractLsb'_append_eq_of_add_le h

theorem format3_low (op : BitVec 2) (rd : RegNum) (op3 : BitVec 6) (rs1 : RegNum) (low : BitVec 14) :
    (format3 op rd op3 rs1 low).extractLsb' 0 14 = low := by
  rw [format3_extract _ _ _ _ _ (by decide), BitVec.extractLsb'_eq_self]

theorem format3_fieldI (op : BitVec 2) (rd : RegNum) (op3 : BitVec 6) (rs1 : RegNum) (low : BitVec 14) :
    fieldI (format3 op rd op3 rs1 low) = low.getLsbD 13 := by
  rw [fieldI, format3, BitVec.getLsbD_append]
  rfl

theorem format3_getLow (op : BitVec 2) (rd : RegNum) (op3 : BitVec 6) (rs1 : RegNum) (low : BitVec 14) :
    fieldAsi (format3 op rd op3 rs1 low) = low.extractLsb' 5 8 ∧ fieldRs2 (format3 op rd op3 rs1 low) = low.extractLsb' 0 5
    ∧ fieldOpf (format3 op rd op3 rs1 low) = low.extractLsb' 5 9 :=
  ⟨format3_extract _ _ _ _ _ (by decide), format3_extract _ _ _ _ _ (by decide), format3_extract _ _ _ _ _ (by decide)⟩

theorem formatBranch_fields (a : Bool) (cond : BitVec 4) (op2 : BitVec 3) (disp22 : BitVec 22) :
    fieldOp (formatBranch a cond op2 disp22) = 0#2 ∧ fieldOp2 (formatBranch a cond op2 disp22) = op2
    ∧ fieldCond (formatBranch a cond op2 disp22) = cond ∧ fieldImm22 (formatBranch a cond op2 disp22) = disp22 := by
  rw [fieldOp, fieldOp2, fieldCond, fieldImm22, formatBranch]
  simp [-Nat.reduceAdd, BitVec.extractLsb'_append_eq_of_le, BitVec.extractLsb'_append_eq_of_add_le]

theorem formatBranch_fieldA (a : Bool) (cond : BitVec 4) (op2 : BitVec 3) (disp22 : BitVec 22) :
    fieldA (formatBranch a cond op2 disp22) = a := by
  rw [fieldA, formatBranch, BitVec.getLsbD_append, BitVec.getLsbD_append, BitVec.getLsbD_append, BitVec.getLsbD_append]
  cases a <;> rfl

theorem format2_fields (rd : RegNum) (op2 : BitVec 3) (imm : BitVec 22) :
    fieldOp (0#2 ++ rd ++ op2 ++ imm) = 0#2 ∧ fieldOp2 (0#2 ++ rd ++ op2 ++ imm) = op2
    ∧ fieldRd (0#2 ++ rd ++ op2 ++ imm) = rd ∧ fieldImm22 (0#2 ++ rd ++ op2 ++ imm) = imm := by
  rw [fieldOp, fieldOp2, fieldRd, fieldImm22]
  simp [-Nat.reduceAdd, BitVec.extractLsb'_append_eq_of_le, BitVec.extractLsb'_append_eq_of_add_le]

theorem call_fields (disp30 : BitVec 30) :
    fieldOp (1#2 ++ disp30) = 1#2 ∧ (1#2 ++ disp30 : Word).extractLsb' 0 30 = disp30 := by
  rw [fieldOp]
  simp [-Nat.reduceAdd, BitVec.extractLsb'_append_eq_of_le, BitVec.extractLsb'_append_eq_of_add_le]

/-- The condition and the annul bit share the place of `rd`. -/
theorem cond_of_rd (w : Word) : fieldCond w = (fieldRd w).extractLsb' 0 4 ∧ fieldA w = (fieldRd w).getLsbD 4 := by
  constructor
  · apply BitVec.eq_of_getLsbD_eq
    intro k hk
    simp [fieldCond, fieldRd, hk, show k < 5 by omega]
  · simp [fieldA, fieldRd]

theorem formatTrap_fields (cond : BitVec 4) (rs1 : RegNum) (op : TrapOperand) :
    fieldCond (formatTrap cond rs1 op) = cond ∧ fieldA (formatTrap cond rs1 op) = false := by
  obtain ⟨-, hrd, -⟩ := format3_fields 2#2 (0#1 ++ cond) 0x3A#6 rs1 op.bits
  obtain ⟨hcond, ha⟩ := cond_of_rd (formatTrap cond rs1 op)
  rw [hcond, ha, formatTrap, hrd]
  exact ⟨by rw [BitVec.extractLsb'_append_eq_of_add_le (by decide), BitVec.extractLsb'_eq_self],
    by rw [BitVec.getLsbD_append]; rfl⟩

/-! ## Words put together from their fields -/

theorem format3_of_fields (w : Word) :
    format3 (fieldOp w) (fieldRd w) (fieldOp3 w) (fieldRs1 w) (w.extractLsb' 0 14) = w := by
  rw [format3, fieldOp, fieldRd, fieldOp3, fieldRs1, BitVec.extractLsb'_append_extractLsb'_eq_extractLsb' (by rfl),
    BitVec.extractLsb'_append_extractLsb'_eq_extractLsb' (by rfl), BitVec.extractLsb'_append_extractLsb'_eq_extractLsb' (by rfl),
    BitVec.extractLsb'_append_extractLsb'_eq_extractLsb' (by rfl)]
  exact BitVec.extractLsb'_eq_self

theorem format2_of_fields (w : Word) : fieldOp w ++ fieldRd w ++ fieldOp2 w ++ fieldImm22 w = w := by
  rw [fieldOp, fieldRd, fieldOp2, fieldImm22, BitVec.extractLsb'_append_extractLsb'_eq_extractLsb' (by rfl),
    BitVec.extractLsb'_append_extractLsb'_eq_extractLsb' (by rfl), BitVec.extractLsb'_append_extractLsb'_eq_extractLsb' (by rfl)]
  exact BitVec.extractLsb'_eq_self

theorem call_of_fields (w : Word) : fieldOp w ++ w.extractLsb' 0 30 = w := by
  rw [fieldOp, BitVec.extractLsb'_append_extractLsb'_eq_extractLsb' (by rfl)]
  exact BitVec.extractLsb'_eq_self

/-- A bit as a field. -/
theorem ofBool_getLsbD (w : Word) (k : Nat) : BitVec.ofBool (w.getLsbD k) = w.extractLsb' k 1 := by
  rw [BitVec.getLsbD_eq_extractLsb']
  generalize w.extractLsb' k 1 = b
  revert b
  decide

/-- The `rd` field of a word, as a branch and a Ticc divide it. -/
theorem fieldRd_eq_annul_cond (w : Word) : fieldRd w = BitVec.ofBool (fieldA w) ++ fieldCond w := by
  rw [fieldA, ofBool_getLsbD, fieldCond, BitVec.extractLsb'_append_extractLsb'_eq_extractLsb' (by rfl)]
  rfl

theorem formatBranch_of_fields (w : Word) (h : fieldOp w = 0#2) :
    formatBranch (fieldA w) (fieldCond w) (fieldOp2 w) (fieldImm22 w) = w := by
  rw [formatBranch, fieldCond, fieldOp2, fieldImm22, fieldA, ofBool_getLsbD, ← h, fieldOp,
    BitVec.extractLsb'_append_extractLsb'_eq_extractLsb' (by rfl), BitVec.extractLsb'_append_extractLsb'_eq_extractLsb' (by rfl),
    BitVec.extractLsb'_append_extractLsb'_eq_extractLsb' (by rfl), BitVec.extractLsb'_append_extractLsb'_eq_extractLsb' (by rfl)]
  exact BitVec.extractLsb'_eq_self

/-! ## Operands (spec/30_encoding.md R206, R207, R214, R217) -/

theorem Operand2.reg_bits (rs2 : RegNum) :
    (Operand2.reg rs2).bits.getLsbD 13 = false ∧ (Operand2.reg rs2).bits.extractLsb' 5 8 = 0#8
    ∧ (Operand2.reg rs2).bits.extractLsb' 0 5 = rs2 := by
  refine ⟨?_, ?_, ?_⟩ <;> rw [Operand2.bits]
  · rw [BitVec.getLsbD_append, BitVec.getLsbD_append]
    rfl
  · rw [BitVec.extractLsb'_append_eq_of_le (by decide), BitVec.extractLsb'_append_eq_of_add_le (by decide)]
    rfl
  · rw [BitVec.extractLsb'_append_eq_of_add_le (by decide), BitVec.extractLsb'_eq_self]

theorem decodeOperand2_format3 (op : BitVec 2) (rd : RegNum) (op3 : BitVec 6) (rs1 : RegNum) (x : Operand2) :
    decodeOperand2 (format3 op rd op3 rs1 x.bits) = some x := by
  obtain ⟨hasi, hrs2, -⟩ := format3_getLow op rd op3 rs1 x.bits
  rw [decodeOperand2, format3_fieldI, hasi, hrs2]
  cases x with
  | reg rs2 =>
    obtain ⟨hi, hz, hr⟩ := Operand2.reg_bits rs2
    rw [if_neg (Bool.eq_false_iff.mp hi), if_pos hz, hr]
  | imm simm13 =>
    have hi : (Operand2.imm simm13).bits.getLsbD 13 = true := by
      rw [Operand2.bits, BitVec.getLsbD_append]
      rfl
    rw [if_pos hi, format3_extract _ _ _ _ _ (by decide), Operand2.bits,
      BitVec.extractLsb'_append_eq_of_add_le (by decide), BitVec.extractLsb'_eq_self]

theorem decodeShiftOperand_format3 (op : BitVec 2) (rd : RegNum) (op3 : BitVec 6) (rs1 : RegNum) (x : ShiftOperand) :
    decodeShiftOperand (format3 op rd op3 rs1 x.bits) = some x := by
  obtain ⟨hasi, hrs2, -⟩ := format3_getLow op rd op3 rs1 x.bits
  rw [decodeShiftOperand, format3_fieldI, hasi, hrs2]
  cases x with
  | reg rs2 =>
    obtain ⟨hi, hz, hr⟩ := Operand2.reg_bits rs2
    rw [show (ShiftOperand.reg rs2).bits = (Operand2.reg rs2).bits from rfl, if_pos hz, if_neg (Bool.eq_false_iff.mp hi), hr]
  | imm shcnt =>
    have hi : (ShiftOperand.imm shcnt).bits.getLsbD 13 = true := by
      rw [ShiftOperand.bits, BitVec.getLsbD_append, BitVec.getLsbD_append]
      rfl
    have hz : (ShiftOperand.imm shcnt).bits.extractLsb' 5 8 = 0#8 := by
      rw [ShiftOperand.bits, BitVec.extractLsb'_append_eq_of_le (by decide),
        BitVec.extractLsb'_append_eq_of_add_le (by decide)]
      rfl
    rw [if_pos hz, if_pos hi, format3_extract _ _ _ _ _ (by decide), ShiftOperand.bits,
      BitVec.extractLsb'_append_eq_of_add_le (by decide), BitVec.extractLsb'_eq_self]

theorem decodeTrapOperand_format3 (op : BitVec 2) (rd : RegNum) (op3 : BitVec 6) (rs1 : RegNum) (x : TrapOperand) :
    decodeTrapOperand (format3 op rd op3 rs1 x.bits) = some x := by
  obtain ⟨hasi, hrs2, -⟩ := format3_getLow op rd op3 rs1 x.bits
  rw [decodeTrapOperand, format3_fieldI, hasi, hrs2]
  cases x with
  | reg rs2 =>
    obtain ⟨hi, hz, hr⟩ := Operand2.reg_bits rs2
    rw [show (TrapOperand.reg rs2).bits = (Operand2.reg rs2).bits from rfl, if_neg (Bool.eq_false_iff.mp hi), if_pos hz, hr]
  | imm number =>
    have hi : (TrapOperand.imm number).bits.getLsbD 13 = true := by
      rw [TrapOperand.bits, BitVec.getLsbD_append, BitVec.getLsbD_append]
      rfl
    have hz : (TrapOperand.imm number).bits.extractLsb' 7 6 = 0#6 := by
      rw [TrapOperand.bits, BitVec.extractLsb'_append_eq_of_le (by decide),
        BitVec.extractLsb'_append_eq_of_add_le (by decide)]
      rfl
    rw [if_pos hi, format3_extract _ _ _ _ _ (by decide), if_pos hz, format3_extract _ _ _ _ _ (by decide),
      TrapOperand.bits, BitVec.extractLsb'_append_eq_of_add_le (by decide), BitVec.extractLsb'_eq_self]

/-- The last 14 bits of a word, divided as `i`, the ASI field and `rs2`. -/
theorem low_of_fields (w : Word) : BitVec.ofBool (fieldI w) ++ fieldAsi w ++ fieldRs2 w = w.extractLsb' 0 14 := by
  rw [fieldI, ofBool_getLsbD, fieldAsi, fieldRs2, BitVec.extractLsb'_append_extractLsb'_eq_extractLsb' (by rfl),
    BitVec.extractLsb'_append_extractLsb'_eq_extractLsb' (by rfl)]

theorem regBits_of_fields {w : Word} (hi : ¬ fieldI w = true) (hz : fieldAsi w = 0#8) :
    0#1 ++ 0#8 ++ fieldRs2 w = w.extractLsb' 0 14 := by
  rw [← low_of_fields, hz, Bool.eq_false_iff.mpr hi]
  rfl

theorem decodeOperand2_bits {w : Word} {x : Operand2} (h : decodeOperand2 w = some x) : x.bits = w.extractLsb' 0 14 := by
  unfold decodeOperand2 at h
  split at h
  case isTrue hi =>
    cases h
    rw [Operand2.bits, show 1#1 = BitVec.ofBool (fieldI w) by rw [hi]; rfl, fieldI, ofBool_getLsbD,
      BitVec.extractLsb'_append_extractLsb'_eq_extractLsb' (by rfl)]
  case isFalse hi =>
    split at h
    case isTrue hz =>
      cases h
      exact regBits_of_fields hi hz
    case isFalse => cases h

theorem decodeShiftOperand_bits {w : Word} {x : ShiftOperand} (h : decodeShiftOperand w = some x) :
    x.bits = w.extractLsb' 0 14 := by
  unfold decodeShiftOperand at h
  split at h
  case isTrue hz =>
    by_cases hi : fieldI w = true
    · rw [if_pos hi] at h
      cases h
      rw [← low_of_fields, hz, hi]
      rfl
    · rw [if_neg hi] at h
      cases h
      exact regBits_of_fields hi hz
  case isFalse => cases h

theorem decodeTrapOperand_bits {w : Word} {x : TrapOperand} (h : decodeTrapOperand w = some x) :
    x.bits = w.extractLsb' 0 14 := by
  unfold decodeTrapOperand at h
  split at h
  case isTrue hi =>
    split at h
    case isTrue hz =>
      cases h
      rw [TrapOperand.bits, ← hz, show 1#1 = BitVec.ofBool (fieldI w) by rw [hi]; rfl, fieldI, ofBool_getLsbD,
        BitVec.extractLsb'_append_extractLsb'_eq_extractLsb' (by rfl),
        BitVec.extractLsb'_append_extractLsb'_eq_extractLsb' (by rfl)]
    case isFalse => cases h
  case isFalse hi =>
    split at h
    case isTrue hz =>
      cases h
      exact regBits_of_fields hi hz
    case isFalse => cases h

/-- The last 19 bits of a word, the ones that a state-register read without `rs1` reserves. -/
theorem low19_of_fields (w : Word) : fieldRs1 w ++ w.extractLsb' 0 14 = w.extractLsb' 0 19 := by
  rw [fieldRs1, BitVec.extractLsb'_append_extractLsb'_eq_extractLsb' (by rfl)]

/-! ## The decoder, one lemma for each table (spec/30_encoding.md R209, R210, R216, R223) -/

theorem decode_of_op2 (c : Config) (rd : RegNum) (op3 : BitVec 6) (rs1 : RegNum) (low : BitVec 14) :
    decode c (format3 2#2 rd op3 rs1 low) = decodeOperate c (format3 2#2 rd op3 rs1 low) := by
  simp [decode, (format3_fields 2#2 rd op3 rs1 low).1]

theorem decode_of_op3 (c : Config) (rd : RegNum) (op3 : BitVec 6) (rs1 : RegNum) (low : BitVec 14) :
    decode c (format3 3#2 rd op3 rs1 low) = decodeMemory (format3 3#2 rd op3 rs1 low) := by
  simp [decode, (format3_fields 3#2 rd op3 rs1 low).1]

theorem decode_branch (c : Config) {cond : BitVec 4} {f : Bool → BitVec 22 → Instr} (h : branchTable.lookup cond = some f)
    (a : Bool) (disp22 : BitVec 22) : decode c (formatBranch a cond 2#3 disp22) = .instr (f a disp22) := by
  obtain ⟨hop, hop2, hcond, himm⟩ := formatBranch_fields a cond 2#3 disp22
  simp [decode, decodeFormat2, hop, hop2, hcond, himm, h, formatBranch_fieldA]

theorem decode_operate (c : Config) {op3 : BitVec 6} {f : RegNum → RegNum → Operand2 → Instr}
    (h : operateTable.lookup op3 = some f) (rd rs1 : RegNum) (op : Operand2) :
    decode c (format3 2#2 rd op3 rs1 op.bits) = .instr (f rd rs1 op) := by
  obtain ⟨-, hrd, hop3, hrs1⟩ := format3_fields 2#2 rd op3 rs1 op.bits
  rw [decode_of_op2, decodeOperate, hop3, h, hrd, hrs1, decodeOperand2_format3]
  rfl

theorem decode_shift (c : Config) {op3 : BitVec 6} {f : RegNum → RegNum → ShiftOperand → Instr}
    (h0 : operateTable.lookup op3 = none) (h : shiftTable.lookup op3 = some f) (rd rs1 : RegNum) (op : ShiftOperand) :
    decode c (format3 2#2 rd op3 rs1 op.bits) = .instr (f rd rs1 op) := by
  obtain ⟨-, hrd, hop3, hrs1⟩ := format3_fields 2#2 rd op3 rs1 op.bits
  rw [decode_of_op2, decodeOperate, hop3, h0, h, hrd, hrs1, decodeShiftOperand_format3]
  rfl

theorem decode_source (c : Config) {op3 : BitVec 6} {f : RegNum → Operand2 → Instr} (h0 : operateTable.lookup op3 = none)
    (h1 : shiftTable.lookup op3 = none) (h : sourceTable.lookup op3 = some f) (rs1 : RegNum) (op : Operand2) :
    decode c (format3 2#2 0#5 op3 rs1 op.bits) = .instr (f rs1 op) := by
  obtain ⟨-, hrd, hop3, hrs1⟩ := format3_fields 2#2 0#5 op3 rs1 op.bits
  rw [decode_of_op2, decodeOperate, hop3, h0, h1, h, hrd, hrs1, decodeOperand2_format3]
  rfl

theorem decode_read (c : Config) {op3 : BitVec 6} {f : RegNum → Instr} (h0 : operateTable.lookup op3 = none)
    (h1 : shiftTable.lookup op3 = none) (h2 : sourceTable.lookup op3 = none) (h : readTable.lookup op3 = some f)
    (rd : RegNum) : decode c (format3 2#2 rd op3 0#5 0#14) = .instr (f rd) := by
  obtain ⟨-, hrd, hop3, hrs1⟩ := format3_fields 2#2 rd op3 0#5 0#14
  have hz : (format3 2#2 rd op3 0#5 0#14).extractLsb' 0 19 = 0#19 := by
    rw [← low19_of_fields, hrs1, format3_low]
    rfl
  rw [decode_of_op2, decodeOperate, hop3, h0, h1, h2, h, hrd, hz]
  rfl

/-- No table gives `op3` an instruction with `op` = 2, and it is none of the four codes that R223 divides further: it is
an option's, or unassigned. -/
def leftToOptions (op3 : BitVec 6) : Bool :=
  (operateTable.lookup op3).isNone && (shiftTable.lookup op3).isNone && (sourceTable.lookup op3).isNone
  && (readTable.lookup op3).isNone && (unitTable.lookup op3).isNone
  && !(op3 == 0x28#6 || op3 == 0x30#6 || op3 == 0x31#6 || op3 == 0x3A#6)

theorem decode_unit (c : Config) {op3 : BitVec 6} {f : RegNum → RegNum → BitVec 9 → RegNum → Instr}
    (h0 : operateTable.lookup op3 = none) (h1 : shiftTable.lookup op3 = none) (h2 : sourceTable.lookup op3 = none)
    (h3 : readTable.lookup op3 = none) (h : unitTable.lookup op3 = some f) (rd rs1 : RegNum) (opf : BitVec 9) (rs2 : RegNum) :
    decode c (format3 2#2 rd op3 rs1 (opf ++ rs2)) = .instr (f rd rs1 opf rs2) := by
  obtain ⟨-, hrd, hop3, hrs1⟩ := format3_fields 2#2 rd op3 rs1 (opf ++ rs2)
  obtain ⟨-, hrs2, hopf⟩ := format3_getLow 2#2 rd op3 rs1 (opf ++ rs2)
  have hf : (opf ++ rs2).extractLsb' 5 9 = opf := by
    rw [BitVec.extractLsb'_append_eq_of_le (by decide), BitVec.extractLsb'_eq_self]
  have h5 : (opf ++ rs2).extractLsb' 0 5 = rs2 := by
    rw [BitVec.extractLsb'_append_eq_of_add_le (by decide), BitVec.extractLsb'_eq_self]
  rw [decode_of_op2, decodeOperate, hop3, h0, h1, h2, h3, h, hrd, hrs1, hopf, hrs2, hf, h5]

theorem decode_readState (c : Config) (rd rs1 : RegNum) :
    decode c (format3 2#2 rd 0x28#6 rs1 0#14)
      = if rs1 = 0#5 then .instr (.rdy rd) else if rs1 = 15#5 ∧ rd = 0#5 then .instr .stbar else .instr (.rdasr rd rs1) := by
  obtain ⟨-, hrd, hop3, hrs1⟩ := format3_fields 2#2 rd 0x28#6 rs1 0#14
  have hd : decodeOperate c (format3 2#2 rd 0x28#6 rs1 0#14) = decodeReadState (format3 2#2 rd 0x28#6 rs1 0#14) := by
    rw [decodeOperate, hop3]
    rfl
  rw [decode_of_op2, hd, decodeReadState, format3_low, hrd, hrs1]
  rfl

theorem decode_writeState (c : Config) (rd rs1 : RegNum) (op : Operand2) :
    decode c (format3 2#2 rd 0x30#6 rs1 op.bits) = .instr (if rd = 0#5 then .wry rs1 op else .wrasr rd rs1 op) := by
  obtain ⟨-, hrd, hop3, hrs1⟩ := format3_fields 2#2 rd 0x30#6 rs1 op.bits
  have hd : decodeOperate c (format3 2#2 rd 0x30#6 rs1 op.bits) = decodeWriteState (format3 2#2 rd 0x30#6 rs1 op.bits) := by
    rw [decodeOperate, hop3]
    rfl
  rw [decode_of_op2, hd, decodeWriteState, decodeOperand2_format3, hrd, hrs1]
  rfl

theorem decode_wrpsr (c : Config) {rd : RegNum} (h : (c.pwrpsr || rd == 0#5) = true) (rs1 : RegNum) (op : Operand2) :
    decode c (format3 2#2 rd 0x31#6 rs1 op.bits) = .instr (.wrpsr rd rs1 op) := by
  obtain ⟨-, hrd, hop3, hrs1⟩ := format3_fields 2#2 rd 0x31#6 rs1 op.bits
  have hd : decodeOperate c (format3 2#2 rd 0x31#6 rs1 op.bits) = .whenZero (c.pwrpsr || rd == 0#5)
      (.ofOption (decodeOperand2 (format3 2#2 rd 0x31#6 rs1 op.bits)) (.wrpsr rd rs1)) := by
    rw [decodeOperate, hop3, hrd, hrs1]
    rfl
  rw [decode_of_op2, hd, h, decodeOperand2_format3]
  rfl

theorem decode_trap (c : Config) {cond : BitVec 4} {f : RegNum → TrapOperand → Instr} (h : trapTable.lookup cond = some f)
    (rs1 : RegNum) (op : TrapOperand) : decode c (formatTrap cond rs1 op) = .instr (f rs1 op) := by
  obtain ⟨hop, -, hop3, hrs1⟩ := format3_fields 2#2 (0#1 ++ cond) 0x3A#6 rs1 op.bits
  obtain ⟨hcond, ha⟩ := formatTrap_fields cond rs1 op
  have hd : decodeOperate c (formatTrap cond rs1 op)
      = .whenZero (!fieldA (formatTrap cond rs1 op)) (.ofOption (decodeTrapOperand (formatTrap cond rs1 op)) (f rs1)) := by
    rw [decodeOperate, hcond, h, formatTrap, hop3, hrs1]
    rfl
  rw [formatTrap, decode_of_op2, ← formatTrap, hd, ha, formatTrap, decodeTrapOperand_format3]
  rfl

/-- The instruction that an option gives `op3`, if the implementation has the option. -/
def optionInstr (c : Config) (op3 : BitVec 6) : Option (RegNum → RegNum → Operand2 → Instr) :=
  match (optionTable c).lookup op3 with
  | some (true, f) => some f
  | _ => none

theorem decodeOperate_option (c : Config) {w : Word} (h : leftToOptions (fieldOp3 w) = true) :
    decodeOperate c w = ((optionInstr c (fieldOp3 w)).map fun f =>
      Decoded.ofOption (decodeOperand2 w) (f (fieldRd w) (fieldRs1 w))).getD .illegal := by
  simp only [leftToOptions, Bool.and_eq_true, Option.isNone_iff_eq_none, Bool.not_eq_true',
    Bool.or_eq_false_iff, beq_eq_false_iff_ne] at h
  obtain ⟨⟨⟨⟨⟨h0, h1⟩, h2⟩, h3⟩, h4⟩, ⟨⟨h28, h30⟩, h31⟩, h3A⟩ := h
  simp only [decodeOperate, h0, h1, h2, h3, h4, h28, h30, h31, h3A, if_false, optionInstr]
  cases (optionTable c).lookup (fieldOp3 w) with
  | none => rfl
  | some entry => obtain ⟨_ | _, f⟩ := entry <;> rfl

theorem Config.macCodes_of_coreWf {c : Config} (h : c.coreWf = true) :
    c.macOp = 2#2 ∧ (∀ op3 ∈ [c.umacOp3, c.umacccOp3, c.smacOp3, c.smacccOp3], op3 ∈ Config.macOp3s)
    ∧ [c.umacOp3, c.umacccOp3, c.smacOp3, c.smacccOp3].Nodup := by
  simp only [Config.coreWf, Bool.and_eq_true, decide_eq_true_eq, beq_iff_eq, List.contains_iff_mem] at h
  refine ⟨?_, ?_, ?_⟩
  · tauto
  · simp only [List.mem_cons, List.not_mem_nil, or_false, forall_eq_or_imp, forall_eq]
    tauto
  · tauto

theorem macOp3s_leftToOptions :
    ∀ op3 ∈ Config.macOp3s, leftToOptions op3 = true ∧ op3 ≠ 0x1D#6 ∧ op3 ≠ 0x2C#6 := by decide

theorem lookup_cons_of_ne {α β : Type} [BEq α] [LawfulBEq α] {a k : α} (h : a ≠ k) (b : β) (l : List (α × β)) :
    ((k, b) :: l).lookup a = l.lookup a := by
  rw [List.lookup_cons, beq_false_of_ne h]

theorem optionInstr_divscc {c : Config} (h : c.divs = true) : optionInstr c 0x1D#6 = some .divscc := by
  simp [optionInstr, optionTable, h]

theorem optionInstr_scan {c : Config} (h : c.scan = true) : optionInstr c 0x2C#6 = some .scan := by
  simp [optionInstr, optionTable, lookup_cons_of_ne, h]

/-- The four codes of the multiply-accumulate instructions, where the implementation has them (R211). -/
theorem optionInstr_mac {c : Config} (h : c.coreWf = true) (hm : c.mac = true) :
    optionInstr c c.umacOp3 = some .umac ∧ optionInstr c c.umacccOp3 = some .umaccc
    ∧ optionInstr c c.smacOp3 = some .smac ∧ optionInstr c c.smacccOp3 = some .smaccc := by
  obtain ⟨hop, hmem, hnodup⟩ := Config.macCodes_of_coreWf h
  have hoff := fun op3 hop3 => (macOp3s_leftToOptions op3 (hmem op3 hop3)).2
  simp only [List.mem_cons, List.not_mem_nil, or_false, forall_eq_or_imp, forall_eq] at hoff
  simp only [List.nodup_cons, List.mem_cons, List.not_mem_nil, or_false, not_or] at hnodup
  obtain ⟨⟨h12, h13, h14⟩, ⟨h23, h24⟩, h34, -⟩ := hnodup
  obtain ⟨⟨h1D, h1C⟩, ⟨h2D, h2C⟩, ⟨h3D, h3C⟩, ⟨h4D, h4C⟩⟩ := hoff
  simp [optionInstr, optionTable, lookup_cons_of_ne, List.lookup_cons_self, Ne.symm, *]

theorem decode_option (c : Config) {op3 : BitVec 6} {f : RegNum → RegNum → Operand2 → Instr} (h : leftToOptions op3 = true)
    (hf : optionInstr c op3 = some f) (rd rs1 : RegNum) (op : Operand2) :
    decode c (format3 2#2 rd op3 rs1 op.bits) = .instr (f rd rs1 op) := by
  obtain ⟨-, hrd, hop3, hrs1⟩ := format3_fields 2#2 rd op3 rs1 op.bits
  rw [decode_of_op2, decodeOperate_option c (by rw [hop3]; exact h), hop3, hf, hrd, hrs1, decodeOperand2_format3]
  rfl

theorem decode_memory (c : Config) {op3 : BitVec 6} {f : RegNum → RegNum → Operand2 → Instr}
    (h : memoryTable.lookup op3 = some f) (rd rs1 : RegNum) (op : Operand2) :
    decode c (format3 3#2 rd op3 rs1 op.bits) = .instr (f rd rs1 op) := by
  obtain ⟨-, hrd, hop3, hrs1⟩ := format3_fields 3#2 rd op3 rs1 op.bits
  rw [decode_of_op3, decodeMemory, hop3, h, hrd, hrs1, decodeOperand2_format3]
  rfl

theorem decode_alternate (c : Config) {op3 : BitVec 6} {f : RegNum → RegNum → Asi → RegNum → Instr}
    (h0 : memoryTable.lookup op3 = none) (h : alternateTable.lookup op3 = some f) (rd rs1 : RegNum) (asi : Asi)
    (rs2 : RegNum) : decode c (format3Asi rd op3 rs1 asi rs2) = .instr (f rd rs1 asi rs2) := by
  obtain ⟨-, hrd, hop3, hrs1⟩ := format3_fields 3#2 rd op3 rs1 (0#1 ++ asi ++ rs2)
  obtain ⟨hasi, hrs2, -⟩ := format3_getLow 3#2 rd op3 rs1 (0#1 ++ asi ++ rs2)
  have hi : (0#1 ++ asi ++ rs2).getLsbD 13 = false := by
    rw [BitVec.getLsbD_append, BitVec.getLsbD_append]
    rfl
  have h8 : (0#1 ++ asi ++ rs2).extractLsb' 5 8 = asi := by
    rw [BitVec.extractLsb'_append_eq_of_le (by decide), BitVec.extractLsb'_append_eq_of_add_le (by decide),
      BitVec.extractLsb'_eq_self]
  have h5 : (0#1 ++ asi ++ rs2).extractLsb' 0 5 = rs2 := by
    rw [BitVec.extractLsb'_append_eq_of_add_le (by decide), BitVec.extractLsb'_eq_self]
  rw [format3Asi, decode_of_op3, decodeMemory, hop3, h0, h, format3_fieldI, hi, hrd, hrs1, hasi, hrs2, h8, h5]
  rfl

/-! ## Decoding what the encoder wrote -/

theorem decode_format2 (c : Config) (rd : RegNum) (op2 : BitVec 3) (imm : BitVec 22) :
    decode c (0#2 ++ rd ++ op2 ++ imm) = decodeFormat2 (0#2 ++ rd ++ op2 ++ imm) := by
  rw [decode, if_pos (format2_fields rd op2 imm).1]

theorem decode_formatBranch (c : Config) (a : Bool) (cond : BitVec 4) (op2 : BitVec 3) (disp22 : BitVec 22) :
    decode c (formatBranch a cond op2 disp22) = decodeFormat2 (formatBranch a cond op2 disp22) := by
  rw [decode, if_pos (formatBranch_fields a cond op2 disp22).1]

/-- Settles O1: format by format and table by table; the operands and fields of each format come back as they were written,
and a code that the implementation chooses for a multiply-accumulate instruction is free in every other table. -/
theorem decodeOfEncode : Obligations.DecodeOfEncode := by
  intro c i hc hi
  have hmac := fun hm => optionInstr_mac hc hm
  obtain ⟨hop, hmem, -⟩ := Config.macCodes_of_coreWf hc
  have hfree := fun op3 hop3 => (macOp3s_leftToOptions op3 (hmem op3 hop3)).1
  cases i with
  | call disp30 =>
    obtain ⟨hop, hdisp⟩ := call_fields disp30
    rw [encode, decode, hop, hdisp]
    rfl
  | unimp rd imm | sethi rd imm =>
    obtain ⟨-, hop2, hrd, himm⟩ := format2_fields rd _ imm
    rw [encode, decode_format2, decodeFormat2, hop2, hrd, himm]
    rfl
  | fbfcc a cond disp22 | cbccc a cond disp22 =>
    obtain ⟨-, hop2, hcond, himm⟩ := formatBranch_fields a cond _ disp22
    rw [encode, decode_formatBranch, decodeFormat2, hop2, hcond, himm, formatBranch_fieldA]
    rfl
  | ba a disp22 | bn a disp22 | bne a disp22 | be a disp22 | bg a disp22 | ble a disp22 | bge a disp22 | bl a disp22
  | bgu a disp22 | bleu a disp22 | bcc a disp22 | bcs a disp22 | bpos a disp22 | bneg a disp22 | bvc a disp22
  | bvs a disp22 => exact decode_branch c rfl a disp22
  | add rd rs1 op | addcc rd rs1 op | addx rd rs1 op | addxcc rd rs1 op | sub rd rs1 op | subcc rd rs1 op
  | subx rd rs1 op | subxcc rd rs1 op | and rd rs1 op | andcc rd rs1 op | andn rd rs1 op | andncc rd rs1 op
  | or rd rs1 op | orcc rd rs1 op | orn rd rs1 op | orncc rd rs1 op | xor rd rs1 op | xorcc rd rs1 op
  | xnor rd rs1 op | xnorcc rd rs1 op | taddcc rd rs1 op | tsubcc rd rs1 op | taddccTV rd rs1 op
  | tsubccTV rd rs1 op | mulscc rd rs1 op | umul rd rs1 op | umulcc rd rs1 op | smul rd rs1 op | smulcc rd rs1 op
  | udiv rd rs1 op | udivcc rd rs1 op | sdiv rd rs1 op | sdivcc rd rs1 op | save rd rs1 op | restore rd rs1 op
  | jmpl rd rs1 op => exact decode_operate c rfl rd rs1 op
  | sll rd rs1 op | srl rd rs1 op | sra rd rs1 op => exact decode_shift c rfl rfl rd rs1 op
  | rett rs1 op | flush rs1 op | wrwim rs1 op | wrtbr rs1 op => exact decode_source c rfl rfl rfl rs1 op
  | rdpsr rd | rdwim rd | rdtbr rd => exact decode_read c rfl rfl rfl rfl rd
  | fpop1 rd rs1 opf rs2 | fpop2 rd rs1 opf rs2 | cpop1 rd rs1 opf rs2 | cpop2 rd rs1 opf rs2 =>
    exact decode_unit c rfl rfl rfl rfl rfl rd rs1 opf rs2
  | rdy rd => exact (decode_readState c rd 0#5).trans (if_pos rfl)
  | stbar => exact decode_readState c 0#5 15#5
  | rdasr rd rs1 =>
    simp only [Instr.wellFormed, Bool.and_eq_true, bne_iff_ne, Bool.not_eq_true', Bool.and_eq_false_iff,
      beq_eq_false_iff_ne] at hi
    obtain ⟨h0, h15⟩ := hi
    rw [encode, decode_readState, if_neg h0, if_neg (not_and_or.mpr h15)]
  | wry rs1 op => exact decode_writeState c 0#5 rs1 op
  | wrasr rd rs1 op =>
    rw [encode, decode_writeState, if_neg (bne_iff_ne.mp hi)]
  | wrpsr rd rs1 op => exact decode_wrpsr c hi rs1 op
  | ta rs1 op | tn rs1 op | tne rs1 op | te rs1 op | tg rs1 op | tle rs1 op | tge rs1 op | tl rs1 op | tgu rs1 op
  | tleu rs1 op | tcc rs1 op | tcs rs1 op | tpos rs1 op | tneg rs1 op | tvc rs1 op | tvs rs1 op =>
    exact decode_trap c rfl rs1 op
  | divscc rd rs1 op => exact decode_option c rfl (optionInstr_divscc hi) rd rs1 op
  | scan rd rs1 op => exact decode_option c rfl (optionInstr_scan hi) rd rs1 op
  | umac rd rs1 op =>
    obtain ⟨hf, -, -, -⟩ := hmac hi
    rw [encode, hop]
    exact decode_option c (hfree _ (by simp)) hf rd rs1 op
  | umaccc rd rs1 op =>
    obtain ⟨-, hf, -, -⟩ := hmac hi
    rw [encode, hop]
    exact decode_option c (hfree _ (by simp)) hf rd rs1 op
  | smac rd rs1 op =>
    obtain ⟨-, -, hf, -⟩ := hmac hi
    rw [encode, hop]
    exact decode_option c (hfree _ (by simp)) hf rd rs1 op
  | smaccc rd rs1 op =>
    obtain ⟨-, -, -, hf⟩ := hmac hi
    rw [encode, hop]
    exact decode_option c (hfree _ (by simp)) hf rd rs1 op
  | ldsb rd rs1 op | ldsh rd rs1 op | ldub rd rs1 op | lduh rd rs1 op | ld rd rs1 op | ldd rd rs1 op | stb rd rs1 op
  | sth rd rs1 op | st rd rs1 op | std rd rs1 op | ldstub rd rs1 op | swap rd rs1 op | ldf rd rs1 op | ldfsr rd rs1 op
  | lddf rd rs1 op | stf rd rs1 op | stfsr rd rs1 op | stdfq rd rs1 op | stdf rd rs1 op | ldc rd rs1 op | ldcsr rd rs1 op
  | lddc rd rs1 op | stc rd rs1 op | stcsr rd rs1 op | stdcq rd rs1 op | stdc rd rs1 op =>
    exact decode_memory c rfl rd rs1 op
  | ldsba rd rs1 asi rs2 | ldsha rd rs1 asi rs2 | lduba rd rs1 asi rs2 | lduha rd rs1 asi rs2 | lda rd rs1 asi rs2
  | ldda rd rs1 asi rs2 | stba rd rs1 asi rs2 | stha rd rs1 asi rs2 | sta rd rs1 asi rs2 | stda rd rs1 asi rs2
  | ldstuba rd rs1 asi rs2 | swapa rd rs1 asi rs2 => exact decode_alternate c rfl rfl rd rs1 asi rs2

end Sys2Proof

namespace Sys2Proof

/-! ## What a table gives is what the encoder writes -/

theorem mem_of_lookup {α β : Type} [BEq α] [LawfulBEq α] {l : List (α × β)} {k : α} {b : β} (h : l.lookup k = some b) :
    (k, b) ∈ l := by
  obtain ⟨l₁, l₂, rfl, -⟩ := List.lookup_eq_some_iff.mp h
  exact List.mem_append_right _ List.mem_cons_self

/-- `w` is the word of the well-formed instruction `i`. -/
def WordOf (c : Config) (i : Instr) (w : Word) : Prop := i.wellFormed c = true ∧ encode c i = w

theorem branchTable_encode (c : Config) : ∀ p ∈ branchTable, ∀ a disp22,
    WordOf c (p.2 a disp22) (formatBranch a p.1 2#3 disp22) := by
  exact List.forall_iff_forall_mem.mp (by and_intros <;> exact fun _ _ => ⟨rfl, rfl⟩)

theorem trapTable_encode (c : Config) : ∀ p ∈ trapTable, ∀ rs1 op, WordOf c (p.2 rs1 op) (formatTrap p.1 rs1 op) := by
  exact List.forall_iff_forall_mem.mp (by and_intros <;> exact fun _ _ => ⟨rfl, rfl⟩)

theorem operateTable_encode (c : Config) : ∀ p ∈ operateTable, ∀ rd rs1 op,
    WordOf c (p.2 rd rs1 op) (format3 2#2 rd p.1 rs1 op.bits) := by
  exact List.forall_iff_forall_mem.mp (by and_intros <;> exact fun _ _ _ => ⟨rfl, rfl⟩)

theorem shiftTable_encode (c : Config) : ∀ p ∈ shiftTable, ∀ rd rs1 op,
    WordOf c (p.2 rd rs1 op) (format3 2#2 rd p.1 rs1 op.bits) := by
  exact List.forall_iff_forall_mem.mp (by and_intros <;> exact fun _ _ _ => ⟨rfl, rfl⟩)

theorem sourceTable_encode (c : Config) : ∀ p ∈ sourceTable, ∀ rs1 op,
    WordOf c (p.2 rs1 op) (format3 2#2 0#5 p.1 rs1 op.bits) := by
  exact List.forall_iff_forall_mem.mp (by and_intros <;> exact fun _ _ => ⟨rfl, rfl⟩)

theorem readTable_encode (c : Config) : ∀ p ∈ readTable, ∀ rd, WordOf c (p.2 rd) (format3 2#2 rd p.1 0#5 0#14) := by
  exact List.forall_iff_forall_mem.mp (by and_intros <;> exact fun _ => ⟨rfl, rfl⟩)

theorem unitTable_encode (c : Config) : ∀ p ∈ unitTable, ∀ rd rs1 opf rs2,
    WordOf c (p.2 rd rs1 opf rs2) (format3 2#2 rd p.1 rs1 (opf ++ rs2)) := by
  exact List.forall_iff_forall_mem.mp (by and_intros <;> exact fun _ _ _ _ => ⟨rfl, rfl⟩)

theorem memoryTable_encode (c : Config) : ∀ p ∈ memoryTable, ∀ rd rs1 op,
    WordOf c (p.2 rd rs1 op) (format3 3#2 rd p.1 rs1 op.bits) := by
  exact List.forall_iff_forall_mem.mp (by and_intros <;> exact fun _ _ _ => ⟨rfl, rfl⟩)

theorem alternateTable_encode (c : Config) : ∀ p ∈ alternateTable, ∀ rd rs1 asi rs2,
    WordOf c (p.2 rd rs1 asi rs2) (format3Asi rd p.1 rs1 asi rs2) := by
  exact List.forall_iff_forall_mem.mp (by and_intros <;> exact fun _ _ _ _ => ⟨rfl, rfl⟩)

theorem optionTable_encode {c : Config} (hop : c.macOp = 2#2) : ∀ p ∈ optionTable c, p.2.1 = true → ∀ rd rs1 op,
    WordOf c (p.2.2 rd rs1 op) (format3 2#2 rd p.1 rs1 op.bits) := by
  have hword : ∀ op3 rd rs1 low, format3 c.macOp rd op3 rs1 low = format3 2#2 rd op3 rs1 low := fun _ _ _ _ => by rw [hop]
  have hmac : ∀ {b : Bool}, (b && c.macOp == 2#2) = true → b = true := fun h => (Bool.and_eq_true_iff.mp h).1
  exact List.forall_iff_forall_mem.mp ⟨fun h _ _ _ => ⟨h, rfl⟩, fun h _ _ _ => ⟨h, rfl⟩,
    fun h _ _ _ => ⟨hmac h, hword _ _ _ _⟩, fun h _ _ _ => ⟨hmac h, hword _ _ _ _⟩,
    fun h _ _ _ => ⟨hmac h, hword _ _ _ _⟩, fun h _ _ _ => ⟨hmac h, hword _ _ _ _⟩⟩

theorem mem_of_optionInstr {c : Config} {op3 : BitVec 6} {f : RegNum → RegNum → Operand2 → Instr}
    (h : optionInstr c op3 = some f) : (op3, true, f) ∈ optionTable c := by
  unfold optionInstr at h
  split at h
  next g hl =>
    cases h
    exact mem_of_lookup hl
  next => cases h

theorem optionInstr_encode {c : Config} (hop : c.macOp = 2#2) {op3 : BitVec 6} {f : RegNum → RegNum → Operand2 → Instr}
    (h : optionInstr c op3 = some f) (rd rs1 : RegNum) (op : Operand2) :
    WordOf c (f rd rs1 op) (format3 2#2 rd op3 rs1 op.bits) :=
  optionTable_encode hop _ (mem_of_optionInstr h) rfl rd rs1 op

/-! ## Taking a decoded word apart (spec/30_encoding.md R213, R214, R223) -/

theorem ofOption_eq_instr {α : Type} {o : Option α} {f : α → Instr} {i : Instr} :
    Decoded.ofOption o f = .instr i ↔ ∃ x, o = some x ∧ f x = i := by
  cases o <;> simp [Decoded.ofOption]

theorem whenZero_eq_instr {ok : Bool} {d : Decoded} {i : Instr} :
    Decoded.whenZero ok d = .instr i ↔ ok = true ∧ d = .instr i := by
  cases ok <;> simp [Decoded.whenZero]

/-- A format 3 word is put together again from its fields and its last 14 bits. -/
theorem format3_of_low {w : Word} {op : BitVec 2} (hop : fieldOp w = op) {low : BitVec 14} (h : low = w.extractLsb' 0 14) :
    format3 op (fieldRd w) (fieldOp3 w) (fieldRs1 w) low = w := by
  rw [h, ← hop, format3_of_fields]

theorem WordOf.of_eq {c : Config} {i : Instr} {v w : Word} (h : WordOf c i v) (e : v = w) : WordOf c i w := e ▸ h

/-- What is left of a word whose register fields are reserved. -/
theorem low19_eq_zero {w : Word} (h : w.extractLsb' 0 19 = 0#19) : fieldRs1 w = 0#5 ∧ w.extractLsb' 0 14 = 0#14 := by
  have h' : fieldRs1 w ++ w.extractLsb' 0 14 = 0#19 := (low19_of_fields w).trans h
  constructor
  · have hhigh : (fieldRs1 w ++ w.extractLsb' 0 14).extractLsb' 14 5 = fieldRs1 w := by
      rw [BitVec.extractLsb'_append_eq_of_le (by decide), BitVec.extractLsb'_eq_self]
    rw [← hhigh, h']
    rfl
  · have hlow : (fieldRs1 w ++ w.extractLsb' 0 14).extractLsb' 0 14 = w.extractLsb' 0 14 := by
      rw [BitVec.extractLsb'_append_eq_of_add_le (by decide), BitVec.extractLsb'_eq_self]
    rw [← hlow, h']
    rfl

theorem decodeFormat2_word {c : Config} {w : Word} {i : Instr} (hop : fieldOp w = 0#2) (h : decodeFormat2 w = .instr i) :
    WordOf c i w := by
  have hformat := format2_of_fields w
  have hbranch := formatBranch_of_fields w hop
  rw [hop] at hformat
  unfold decodeFormat2 at h
  split at h
  case isTrue h0 => cases h; exact ⟨rfl, by rw [h0] at hformat; exact hformat⟩
  case isFalse =>
  split at h
  case isTrue h2 =>
    split at h
    next f hf =>
      cases h
      rw [h2] at hbranch
      exact (branchTable_encode c _ (mem_of_lookup hf) _ _).of_eq hbranch
    next => cases h
  case isFalse =>
  split at h
  case isTrue h4 => cases h; exact ⟨rfl, by rw [h4] at hformat; exact hformat⟩
  case isFalse =>
  split at h
  case isTrue h6 => cases h; exact ⟨rfl, by rw [h6] at hbranch; exact hbranch⟩
  case isFalse =>
  split at h
  case isTrue h7 => cases h; exact ⟨rfl, by rw [h7] at hbranch; exact hbranch⟩
  case isFalse => cases h

theorem decodeReadState_word {c : Config} {w : Word} {i : Instr} (hop : fieldOp w = 2#2) (h3 : fieldOp3 w = 0x28#6)
    (h : decodeReadState w = .instr i) : WordOf c i w := by
  obtain ⟨hz, h⟩ := whenZero_eq_instr.mp h
  have hw := format3_of_low hop (beq_iff_eq.mp hz).symm
  rw [h3] at hw
  split at h
  case isTrue h0 =>
    cases h
    rw [h0] at hw
    exact ⟨rfl, hw⟩
  case isFalse h0 =>
  split at h
  case isTrue h15 =>
    obtain ⟨h15, hrd⟩ := h15
    cases h
    rw [h15, hrd] at hw
    exact ⟨rfl, hw⟩
  case isFalse h15 =>
    cases h
    exact ⟨by simpa [Instr.wellFormed, h0, -not_and] using not_and_or.mp h15, hw⟩

theorem decodeWriteState_word {c : Config} {w : Word} {i : Instr} (hop : fieldOp w = 2#2) (h3 : fieldOp3 w = 0x30#6)
    (h : decodeWriteState w = .instr i) : WordOf c i w := by
  obtain ⟨op, hx, rfl⟩ := ofOption_eq_instr.mp h
  have hw := format3_of_low hop (decodeOperand2_bits hx)
  rw [h3] at hw
  split
  case isTrue h0 =>
    rw [h0] at hw
    exact ⟨rfl, hw⟩
  case isFalse h0 => exact ⟨bne_iff_ne.mpr h0, hw⟩

theorem decodeTrap_word {c : Config} {w : Word} {i : Instr} {f : RegNum → TrapOperand → Instr} (hop : fieldOp w = 2#2)
    (h3 : fieldOp3 w = 0x3A#6) (hf : trapTable.lookup (fieldCond w) = some f)
    (h : Decoded.whenZero (!fieldA w) (.ofOption (decodeTrapOperand w) (f (fieldRs1 w))) = .instr i) : WordOf c i w := by
  obtain ⟨ha, h⟩ := whenZero_eq_instr.mp h
  obtain ⟨op, hx, rfl⟩ := ofOption_eq_instr.mp h
  have hw := format3_of_low hop (decodeTrapOperand_bits hx)
  rw [h3, fieldRd_eq_annul_cond, (Bool.not_eq_eq_eq_not ..).mp ha] at hw
  exact (trapTable_encode c _ (mem_of_lookup hf) _ _).of_eq hw

theorem decodeOperate_word {c : Config} {w : Word} {i : Instr} (hmac : c.macOp = 2#2) (hop : fieldOp w = 2#2)
    (h : decodeOperate c w = .instr i) : WordOf c i w := by
  by_cases hleft : leftToOptions (fieldOp3 w) = true
  case pos =>
    rw [decodeOperate_option c hleft] at h
    cases hf : optionInstr c (fieldOp3 w) with
    | none => rw [hf] at h; cases h
    | some f =>
      rw [hf] at h
      obtain ⟨op, hx, rfl⟩ := ofOption_eq_instr.mp h
      exact (optionInstr_encode hmac hf _ _ _).of_eq (format3_of_low hop (decodeOperand2_bits hx))
  case neg =>
  unfold decodeOperate at h
  split at h
  next f hf =>
    obtain ⟨op, hx, rfl⟩ := ofOption_eq_instr.mp h
    exact (operateTable_encode c _ (mem_of_lookup hf) _ _ _).of_eq (format3_of_low hop (decodeOperand2_bits hx))
  next h0 =>
  split at h
  next f hf =>
    obtain ⟨op, hx, rfl⟩ := ofOption_eq_instr.mp h
    exact (shiftTable_encode c _ (mem_of_lookup hf) _ _ _).of_eq (format3_of_low hop (decodeShiftOperand_bits hx))
  next h1 =>
  split at h
  next f hf =>
    obtain ⟨hz, h⟩ := whenZero_eq_instr.mp h
    obtain ⟨op, hx, rfl⟩ := ofOption_eq_instr.mp h
    have hw := format3_of_low hop (decodeOperand2_bits hx)
    rw [beq_iff_eq.mp hz] at hw
    exact (sourceTable_encode c _ (mem_of_lookup hf) _ _).of_eq hw
  next h2 =>
  split at h
  next f hf =>
    obtain ⟨hz, h⟩ := whenZero_eq_instr.mp h
    cases h
    obtain ⟨hrs1, hlow⟩ := low19_eq_zero (beq_iff_eq.mp hz)
    have hw := format3_of_low hop hlow.symm
    rw [hrs1] at hw
    exact (readTable_encode c _ (mem_of_lookup hf) _).of_eq hw
  next h3 =>
  split at h
  next f hf =>
    cases h
    refine (unitTable_encode c _ (mem_of_lookup hf) _ _ _ _).of_eq (format3_of_low hop ?_)
    rw [fieldOpf, fieldRs2, BitVec.extractLsb'_append_extractLsb'_eq_extractLsb' (by rfl)]
  next h4 =>
  split at h
  case isTrue h28 => exact decodeReadState_word hop h28 h
  case isFalse h28 =>
  split at h
  case isTrue h30 => exact decodeWriteState_word hop h30 h
  case isFalse h30 =>
  split at h
  case isTrue h31 =>
    obtain ⟨hz, h⟩ := whenZero_eq_instr.mp h
    obtain ⟨op, hx, rfl⟩ := ofOption_eq_instr.mp h
    have hw := format3_of_low hop (decodeOperand2_bits hx)
    rw [h31] at hw
    exact ⟨hz, hw⟩
  case isFalse h31 =>
  split at h
  case isTrue h3A =>
    split at h
    next f hf => exact decodeTrap_word hop h3A hf h
    next => cases h
  case isFalse h3A =>
    exact absurd (by simp [leftToOptions, h0, h1, h2, h3, h4, h28, h30, h31, h3A]) hleft

theorem decodeMemory_word {c : Config} {w : Word} {i : Instr} (hop : fieldOp w = 3#2) (h : decodeMemory w = .instr i) :
    WordOf c i w := by
  unfold decodeMemory at h
  split at h
  next f hf =>
    obtain ⟨op, hx, rfl⟩ := ofOption_eq_instr.mp h
    exact (memoryTable_encode c _ (mem_of_lookup hf) _ _ _).of_eq (format3_of_low hop (decodeOperand2_bits hx))
  next =>
  split at h
  next f hf =>
    split at h
    case isTrue => cases h
    case isFalse hi =>
      cases h
      have hlow := low_of_fields w
      rw [Bool.eq_false_iff.mpr hi] at hlow
      exact (alternateTable_encode c _ (mem_of_lookup hf) _ _ _ _).of_eq (format3_of_low hop hlow)
  next => cases h

/-- Settles O2: each branch of the decoder has checked every reserved bit, so that the fields it read, put together as the
encoder does, are the word. -/
theorem encodeOfDecode : Obligations.EncodeOfDecode := by
  intro c w i hc h
  obtain ⟨hmac, -, -⟩ := Config.macCodes_of_coreWf hc
  unfold decode at h
  split at h
  case isTrue hop => exact decodeFormat2_word hop h
  case isFalse h0 =>
  split at h
  case isTrue hop =>
    cases h
    have hw := call_of_fields w
    rw [hop] at hw
    exact ⟨rfl, hw⟩
  case isFalse h1 =>
  split at h
  case isTrue hop => exact decodeOperate_word hmac hop h
  case isFalse h2 =>
    have hop : fieldOp w = 3#2 := by
      have hlast : ∀ op : BitVec 2, op ≠ 0#2 → op ≠ 1#2 → op ≠ 2#2 → op = 3#2 := by decide
      exact hlast _ h0 h1 h2
    exact decodeMemory_word hop h

end Sys2Proof

namespace Sys2Proof

/-! ## Words that are no instruction (spec/30_encoding.md R211, R213) -/

theorem fieldOp_eq (w : Word) : fieldOp w = BitVec.ofNat 2 (w.toNat / 2 ^ 30) :=
  BitVec.eq_of_toNat_eq (by simp [fieldOp, Nat.shiftRight_eq_div_pow])

theorem fieldOp2_eq (w : Word) : fieldOp2 w = BitVec.ofNat 3 (w.toNat / 2 ^ 22 % 8) :=
  BitVec.eq_of_toNat_eq (by simp [fieldOp2, Nat.shiftRight_eq_div_pow])

theorem fieldOp3_eq (w : Word) : fieldOp3 w = BitVec.ofNat 6 (w.toNat / 2 ^ 19 % 64) :=
  BitVec.eq_of_toNat_eq (by simp [fieldOp3, Nat.shiftRight_eq_div_pow])

theorem decode_op0 (c : Config) {w : Word} (h : w.toNat / 2 ^ 30 = 0) : decode c w = decodeFormat2 w := by
  rw [decode, fieldOp_eq, h]
  rfl

theorem decode_op2 (c : Config) {w : Word} (h : w.toNat / 2 ^ 30 = 2) : decode c w = decodeOperate c w := by
  rw [decode, fieldOp_eq, h]
  rfl

theorem decode_op3 (c : Config) {w : Word} (h : w.toNat / 2 ^ 30 = 3) : decode c w = decodeMemory w := by
  rw [decode, fieldOp_eq, h]
  rfl

/-- Which option a code belongs to, where the implementation has it. -/
theorem option_of_optionInstr {c : Config} {op3 : BitVec 6} {f : RegNum → RegNum → Operand2 → Instr}
    (h : optionInstr c op3 = some f) : (op3 = 0x1D#6 ∧ c.divs = true) ∨ (op3 = 0x2C#6 ∧ c.scan = true)
      ∨ (c.mac = true ∧ op3 ∈ [c.umacOp3, c.umacccOp3, c.smacOp3, c.smacccOp3]) := by
  have hmem := mem_of_optionInstr h
  simp only [optionTable, List.mem_cons, Prod.mk.injEq, List.not_mem_nil, or_false] at hmem ⊢
  have hmac : true = (c.mac && c.macOp == 2#2) → c.mac = true := fun e => (Bool.and_eq_true_iff.mp e.symm).1
  rcases hmem with ⟨e, hp, -⟩ | ⟨e, hp, -⟩ | ⟨e, hp, -⟩ | ⟨e, hp, -⟩ | ⟨e, hp, -⟩ | ⟨e, hp, -⟩
  · exact .inl ⟨e, hp.symm⟩
  · exact .inr (.inl ⟨e, hp.symm⟩)
  · exact .inr (.inr ⟨hmac hp, .inl e⟩)
  · exact .inr (.inr ⟨hmac hp, .inr (.inl e)⟩)
  · exact .inr (.inr ⟨hmac hp, .inr (.inr (.inl e))⟩)
  · exact .inr (.inr ⟨hmac hp, .inr (.inr (.inr e))⟩)

/-- A code of no option that the implementation has is no instruction (R213). -/
theorem decode_absent_option {c : Config} {w : Word} (hop : w.toNat / 2 ^ 30 = 2) (hleft : leftToOptions (fieldOp3 w) = true)
    (hd : fieldOp3 w = 0x1D#6 → c.divs = false) (hs : fieldOp3 w = 0x2C#6 → c.scan = false)
    (hm : c.mac = true → fieldOp3 w ∉ [c.umacOp3, c.umacccOp3, c.smacOp3, c.smacccOp3]) : decode c w = .illegal := by
  rw [decode_op2 c hop, decodeOperate_option c hleft]
  cases hf : optionInstr c (fieldOp3 w) with
  | none => rfl
  | some f =>
    rcases option_of_optionInstr hf with ⟨e, h⟩ | ⟨e, h⟩ | ⟨h, e⟩
    · rw [hd e] at h; cases h
    · rw [hs e] at h; cases h
    · exact absurd e (hm h)

/-- A code that no table of the memory instructions has. -/
theorem decode_unassigned_memory {c : Config} {w : Word} (hop : w.toNat / 2 ^ 30 = 3) {k : Nat} (hk : w.toNat / 2 ^ 19 % 64 = k)
    (h : (memoryTable.lookup (BitVec.ofNat 6 k)).isNone = true ∧ (alternateTable.lookup (BitVec.ofNat 6 k)).isNone = true) :
    decode c w = .illegal := by
  obtain ⟨h0, h1⟩ := h
  rw [decode_op3 c hop, decodeMemory, fieldOp3_eq, hk, Option.isNone_iff_eq_none.mp h0, Option.isNone_iff_eq_none.mp h1]

theorem unassigned_memory_codes : ∀ k < 64,
    k ∈ [0x08, 0x0B, 0x0C, 0x0E, 0x18, 0x1B, 0x1C, 0x1E, 0x22, 0x32] ∨ (0x28 ≤ k ∧ k ≤ 0x2F) ∨ 0x38 ≤ k →
      (memoryTable.lookup (BitVec.ofNat 6 k)).isNone = true ∧ (alternateTable.lookup (BitVec.ofNat 6 k)).isNone = true := by
  decide

theorem alternate_codes : ∀ k ∈ [0x10, 0x11, 0x12, 0x13, 0x14, 0x15, 0x16, 0x17, 0x19, 0x1A, 0x1D, 0x1F],
    (memoryTable.lookup (BitVec.ofNat 6 k)).isNone = true ∧ (alternateTable.lookup (BitVec.ofNat 6 k)).isSome = true := by
  decide

theorem mac_codes : ∀ k ∈ [0x09, 0x0D, 0x19, 0x2D, 0x2E, 0x2F, 0x3E, 0x3F], leftToOptions (BitVec.ofNat 6 k) = true
    ∧ (BitVec.ofNat 6 k ≠ 0x1D#6 ∧ BitVec.ofNat 6 k ≠ 0x2C#6) ∧ (BitVec.ofNat 6 k).toNat = k := by decide

/-- Settles O4: the tables, searched for each class of codes, give nothing, and an option's code gives nothing where the
implementation lacks the option; executing such a word raises its trap by the definition of `runDecoded`. -/
theorem undefinedWordsTrap : Obligations.UndefinedWordsTrap := by
  intro c w hc
  have hmem := (Config.macCodes_of_coreWf hc).2.1
  have hfree := fun op3 hop3 => (macOp3s_leftToOptions op3 (hmem op3 hop3)).2
  have hk : w.toNat / 2 ^ 19 % 64 < 64 := Nat.mod_lt _ (by decide)
  refine ⟨⟨?_, ?_, ?_, ?_, ?_, ?_, ?_, ?_⟩, fun s => ⟨rfl, ?_⟩⟩
  · rintro ⟨hop, hop2⟩
    have hcodes : ∀ k ∈ [1, 3, 5], BitVec.ofNat 3 k ≠ 0#3 ∧ BitVec.ofNat 3 k ≠ 2#3 ∧ BitVec.ofNat 3 k ≠ 4#3
        ∧ BitVec.ofNat 3 k ≠ 6#3 ∧ BitVec.ofNat 3 k ≠ 7#3 := by decide
    obtain ⟨h0, h2, h4, h6, h7⟩ := hcodes _ hop2
    rw [decode_op0 c hop, decodeFormat2, fieldOp2_eq, if_neg h0, if_neg h2, if_neg h4, if_neg h6, if_neg h7]
  · rintro ⟨hop, hop3, hd⟩
    have hf : fieldOp3 w = 0x1D#6 := by rw [fieldOp3_eq, hop3]
    exact decode_absent_option hop (by rw [hf]; rfl) (fun _ => hd) (fun e => absurd (hf.symm.trans e) (by decide))
      (fun _ e => (hfree _ e).1 hf)
  · rintro ⟨hop, hop3, hs⟩
    have hf : fieldOp3 w = 0x2C#6 := by rw [fieldOp3_eq, hop3]
    exact decode_absent_option hop (by rw [hf]; rfl) (fun e => absurd (hf.symm.trans e) (by decide)) (fun _ => hs)
      (fun _ e => (hfree _ e).2 hf)
  · rintro ⟨hop, hop3, hm⟩
    obtain ⟨hleft, ⟨hd, hs⟩, hnat⟩ := mac_codes _ hop3
    rw [← fieldOp3_eq] at hleft hd hs hnat
    refine decode_absent_option hop hleft (fun e => absurd e hd) (fun e => absurd e hs) fun hmac e => ?_
    rw [hmac] at hm
    refine hm.resolve_left (by decide) ?_
    rw [← hnat]
    exact List.mem_map_of_mem (f := BitVec.toNat) e
  · rintro ⟨hop, h⟩
    exact decode_unassigned_memory hop rfl (unassigned_memory_codes _ hk (.inl h))
  · rintro ⟨hop, h⟩
    exact decode_unassigned_memory hop rfl (unassigned_memory_codes _ hk (.inr (.inl h)))
  · rintro ⟨hop, h⟩
    exact decode_unassigned_memory hop rfl (unassigned_memory_codes _ hk (.inr (.inr h)))
  · rintro ⟨hop, hi, h⟩
    obtain ⟨h0, h1⟩ := alternate_codes _ h
    obtain ⟨f, hf⟩ := Option.isSome_iff_exists.mp h1
    rw [← fieldOp3_eq] at h0 hf
    rw [decode_op3 c hop, decodeMemory, Option.isNone_iff_eq_none.mp h0, hf]
    exact if_pos hi
  · cases hs : s.sup <;> cases hn : s.cfg.npasi <;> simp [Machine.runDecoded, Machine.takeTrap, hs, hn] <;> rfl

/-! ## The words of the spec's examples -/

theorem reg_word (rd : RegNum) (op3 : BitVec 6) (rs1 rs2 : RegNum) :
    (2#2 ++ rd ++ op3 ++ rs1 ++ 0#9 ++ rs2 : Word) = format3 2#2 rd op3 rs1 (Operand2.reg rs2).bits := by
  rw [format3, Operand2.bits]
  exact BitVec.append_assoc ..

theorem imm_word (rd : RegNum) (op3 : BitVec 6) (rs1 : RegNum) (simm13 : BitVec 13) :
    (2#2 ++ rd ++ op3 ++ rs1 ++ 1#1 ++ simm13 : Word) = format3 2#2 rd op3 rs1 (Operand2.imm simm13).bits := by
  rw [format3, Operand2.bits]
  exact BitVec.append_assoc ..

/-- Settles O3. -/
theorem specWordsDecode : Obligations.SpecWordsDecode := by
  intro c
  refine ⟨rfl, rfl, rfl, rfl, rfl, rfl, rfl, rfl, rfl, rfl, rfl, rfl, rfl, rfl, rfl, rfl, rfl, rfl, rfl, rfl, rfl, rfl, rfl,
    rfl, rfl, rfl, rfl, rfl, rfl, rfl, rfl, rfl, rfl, rfl, rfl, rfl, rfl, ?_, ?_, ?_⟩
  · intro h
    exact decode_option c (op3 := 0x1D#6) rfl (optionInstr_divscc h) 9#5 9#5 (.reg 10#5)
  · intro h
    exact decode_option c (op3 := 0x2C#6) rfl (optionInstr_scan h) 9#5 8#5 (.imm 0x1FFF#13)
  · intro hc hm
    obtain ⟨humac, humaccc, hsmac, hsmaccc⟩ := optionInstr_mac hc hm
    have hfree := fun op3 hop3 => (macOp3s_leftToOptions op3 ((Config.macCodes_of_coreWf hc).2.1 op3 hop3)).1
    exact ⟨by rw [reg_word]; exact decode_option c (hfree _ (by simp)) humac _ _ _,
      by rw [imm_word]; exact decode_option c (hfree _ (by simp)) humaccc _ _ _,
      by rw [reg_word]; exact decode_option c (hfree _ (by simp)) hsmac _ _ _,
      by rw [imm_word]; exact decode_option c (hfree _ (by simp)) hsmaccc _ _ _⟩

end Sys2Proof

namespace Sys2Proof.Machine

/-! ## Condition codes as ranges of the exact results (spec/45_v8_base_alu.md R382, R383) -/

theorem bit_eq_ofNat (b : Bool) : bit b = BitVec.ofNat 32 b.toNat := by cases b <;> rfl

theorem bit_toNat (b : Bool) : (bit b).toNat = b.toNat := by cases b <;> rfl

theorem eq_zero_iff_toNat (x : Word) : (x == 0#32) = decide (x.toNat = 0) := by
  rw [beq_eq_decide]
  exact decide_eq_decide.mpr BitVec.toNat_inj.symm

/-- The sum modulo 2^32. -/
theorem sum_toNat (a b : Word) (cin : Bool) :
    (a + b + bit cin).toNat = (a.toNat + b.toNat + cin.toNat) % 2 ^ 32 := by
  rw [BitVec.toNat_add, BitVec.toNat_add, bit_toNat, Nat.mod_add_mod]

/-- The difference modulo 2^32. -/
theorem difference_toNat (a b : Word) (cin : Bool) :
    ((a - b - bit cin).toNat : Int) = ((a.toNat : Int) - b.toNat - cin.toNat) % 2 ^ 32 := by
  have ha := a.isLt
  have hb := b.isLt
  have hc := cin.toNat_lt
  rw [BitVec.toNat_sub, BitVec.toNat_sub, bit_toNat]
  omega

/-- Carry: the unsigned sum leaves the range of a word. -/
theorem addFlags_carry (a b : Word) (cin : Bool) :
    (addFlags a b (a + b + bit cin)).c = decide (2 ^ 32 ≤ a.toNat + b.toNat + cin.toNat) := by
  have ha := a.isLt
  have hb := b.isLt
  have hc := cin.toNat_lt
  rw [Bool.eq_iff_iff]
  simp only [addFlags, BitVec.msb_eq_decide, sum_toNat, Bool.or_eq_true, Bool.and_eq_true,
    Bool.not_eq_true', decide_eq_true_eq, decide_eq_false_iff_not]
  omega

/-- Overflow: the signed sum leaves the range of a word. -/
theorem addFlags_overflow (a b : Word) (cin : Bool) : (addFlags a b (a + b + bit cin)).v
    = decide (a.toInt + b.toInt + cin.toNat < -2 ^ 31 ∨ 2 ^ 31 ≤ a.toInt + b.toInt + cin.toNat) := by
  have ha := a.isLt
  have hb := b.isLt
  have hc := cin.toNat_lt
  rw [Bool.eq_iff_iff]
  simp only [addFlags, BitVec.msb_eq_decide, sum_toNat, BitVec.toInt_eq_toNat_cond, Bool.or_eq_true,
    Bool.and_eq_true, Bool.not_eq_true', decide_eq_true_eq, decide_eq_false_iff_not]
  split <;> split <;> omega

/-- Borrow: the unsigned difference is negative. -/
theorem subFlags_borrow (a b : Word) (cin : Bool) :
    (subFlags a b (a - b - bit cin)).c = decide (a.toNat < b.toNat + cin.toNat) := by
  have ha := a.isLt
  have hb := b.isLt
  have hc := cin.toNat_lt
  have hr := difference_toNat a b cin
  rw [Bool.eq_iff_iff]
  simp only [subFlags, BitVec.msb_eq_decide, Bool.or_eq_true, Bool.and_eq_true,
    Bool.not_eq_true', decide_eq_true_eq, decide_eq_false_iff_not]
  omega

/-- Overflow: the signed difference leaves the range of a word. -/
theorem subFlags_overflow (a b : Word) (cin : Bool) : (subFlags a b (a - b - bit cin)).v
    = decide (a.toInt - b.toInt - cin.toNat < -2 ^ 31 ∨ 2 ^ 31 ≤ a.toInt - b.toInt - cin.toNat) := by
  have ha := a.isLt
  have hb := b.isLt
  have hc := cin.toNat_lt
  have hr := difference_toNat a b cin
  rw [Bool.eq_iff_iff]
  simp only [subFlags, BitVec.msb_eq_decide, BitVec.toInt_eq_toNat_cond, Bool.or_eq_true,
    Bool.and_eq_true, Bool.not_eq_true', decide_eq_true_eq, decide_eq_false_iff_not]
  split <;> split <;> omega

/-- Settles O9: the bit formulas are the model's own, and each range condition is one of the four lemmas above. -/
theorem flagFormulas : Obligations.FlagFormulas := by
  intro a b cin
  rw [← bit_eq_ofNat]
  have hz (x : Word) : (x == 0#32) = decide (x = 0#32) := beq_eq_decide ..
  refine ⟨⟨?_, hz _, ?_, ?_, ?_, ?_⟩, ⟨?_, hz _, ?_, ?_, ?_, ?_⟩⟩
  · exact BitVec.msb_eq_getLsbD_last (a + b + bit cin)
  · simp only [addFlags, BitVec.msb_eq_getLsbD_last]
  · simp only [addFlags, BitVec.msb_eq_getLsbD_last]
  · rw [addFlags_carry, decide_eq_true_iff]
  · rw [addFlags_overflow, decide_eq_true_iff]
  · exact BitVec.msb_eq_getLsbD_last (a - b - bit cin)
  · simp only [subFlags, BitVec.msb_eq_getLsbD_last]
  · simp only [subFlags, BitVec.msb_eq_getLsbD_last]
  · rw [subFlags_borrow, decide_eq_true_iff]
  · rw [subFlags_overflow, decide_eq_true_iff]

/-- The flags of a sum are the ranges that the statements name. -/
theorem afterSum_eq (s : State) (a b : Word) (cin : Bool) :
    afterSum s a b cin = s.setIcc (addFlags a b (a + b + bit cin)) := by
  rw [State.setIcc, addFlags_carry, addFlags_overflow]
  simp only [afterSum, withFlags, addFlags, BitVec.msb_eq_decide, eq_zero_iff_toNat, sum_toNat]

theorem afterDifference_eq (s : State) (a b : Word) (cin : Bool) :
    afterDifference s a b cin = s.setIcc (subFlags a b (a - b - bit cin)) := by
  have hr := difference_toNat a b cin
  have hn : (a - b - bit cin).msb = decide (2 ^ 31 ≤ ((a.toNat : Int) - b.toNat - cin.toNat) % 2 ^ 32) := by
    rw [BitVec.msb_eq_decide]
    exact decide_eq_decide.mpr (by omega)
  have hz : (a - b - bit cin == 0#32) = decide (((a.toNat : Int) - b.toNat - cin.toNat) % 2 ^ 32 = 0) := by
    rw [eq_zero_iff_toNat]
    exact decide_eq_decide.mpr (by omega)
  have hc : decide ((a.toNat : Int) - b.toNat - cin.toNat < 0) = decide (a.toNat < b.toNat + cin.toNat) :=
    decide_eq_decide.mpr (by omega)
  rw [State.setIcc, subFlags_borrow, subFlags_overflow, subFlags, hn, hz]
  simp only [afterDifference, withFlags, hc]

theorem afterResult_eq (s : State) (w : Word) (v : Bool) : afterResult s w v = s.setIcc (resultFlags w v) := by
  simp only [afterResult, withFlags, State.setIcc, resultFlags, BitVec.msb_eq_decide, eq_zero_iff_toNat]

/-! ## Add, subtract and logical (R341 to R360) -/

theorem sum_eq_ofNat (a b : Word) : a + b = BitVec.ofNat 32 (a.toNat + b.toNat) :=
  BitVec.eq_of_toNat_eq (by simp)

theorem sumCarry_eq_ofNat (a b : Word) (cin : Bool) : a + b + bit cin = BitVec.ofNat 32 (a.toNat + b.toNat + cin.toNat) :=
  BitVec.eq_of_toNat_eq (by rw [sum_toNat, BitVec.toNat_ofNat])

theorem differenceBorrow_eq_ofInt (a b : Word) (cin : Bool) :
    a - b - bit cin = BitVec.ofInt 32 (a.toNat - b.toNat - cin.toNat) := by
  apply BitVec.eq_of_toNat_eq
  have hr := difference_toNat a b cin
  rw [BitVec.toNat_ofInt]
  omega

theorem difference_eq_ofInt (a b : Word) : a - b = BitVec.ofInt 32 (a.toNat - b.toNat) := by
  have h := differenceBorrow_eq_ofInt a b false
  simpa [bit] using h

/-- The template of R340 without condition codes. -/
theorem completes_of_writeResult {i : Instr} {s : State} {rd : RegNum} {v : Word} (h : exec i s = writeResult s rd v) :
    Completes i s s rd v := completes_of_write h rfl rfl rfl rfl

theorem add_zero_bit (x : Word) : x + bit false = x := BitVec.add_zero x

theorem sub_zero_bit (x : Word) : x - bit false = x := BitVec.sub_zero x

/-- Settles O10: each form is the template of R340 with the result modulo 2^32 and, in a cc form, with the flags of the exact
sum or difference. -/
theorem addSubtract : Obligations.AddSubtract := by
  intro s rd rs1 op a b
  rw [← sum_eq_ofNat, ← sumCarry_eq_ofNat, ← difference_eq_ofInt, ← differenceBorrow_eq_ofInt, afterSum_eq, afterSum_eq,
    afterDifference_eq, afterDifference_eq, add_zero_bit, sub_zero_bit]
  exact ⟨completes_of_writeResult rfl, completes_of_writeResult rfl, completes_of_writeResult rfl,
    completes_of_writeResult rfl, completes_of_writeCc rfl rfl, completes_of_writeCc rfl rfl, completes_of_writeCc rfl rfl,
    completes_of_writeCc rfl rfl⟩

/-- Settles O11. -/
theorem logical : Obligations.Logical := by
  intro s rd rs1 op a b
  simp only [afterResult_eq]
  exact ⟨completes_of_writeResult rfl, completes_of_writeCc rfl rfl, completes_of_writeResult rfl, completes_of_writeCc rfl rfl,
    completes_of_writeResult rfl, completes_of_writeCc rfl rfl, completes_of_writeResult rfl, completes_of_writeCc rfl rfl,
    completes_of_writeResult rfl, completes_of_writeCc rfl rfl, completes_of_writeResult rfl, completes_of_writeCc rfl rfl⟩

/-! ## Shifts and SETHI (R361 to R364) -/

theorem shiftCount_lt (s : State) (op : ShiftOperand) : shiftCount s op < 32 := by
  cases op with
  | reg rs2 => exact ((s.reg rs2).extractLsb' 0 5).isLt
  | imm shcnt => exact shcnt.isLt

theorem shiftLeft_eq_ofNat (a : Word) (k : Nat) : a <<< k = BitVec.ofNat 32 (a.toNat * 2 ^ k) :=
  BitVec.eq_of_toNat_eq (by rw [BitVec.toNat_shiftLeft, BitVec.toNat_ofNat, Nat.shiftLeft_eq])

theorem shiftRight_eq_ofNat (a : Word) (k : Nat) : a >>> k = BitVec.ofNat 32 (a.toNat / 2 ^ k) := by
  apply BitVec.eq_of_toNat_eq
  rw [BitVec.toNat_ushiftRight, BitVec.toNat_ofNat, Nat.shiftRight_eq_div_pow,
    Nat.mod_eq_of_lt ((Nat.div_le_self ..).trans_lt a.isLt)]

theorem sshiftRight_eq_ofInt (a : Word) (k : Nat) : a.sshiftRight k = BitVec.ofInt 32 (a.toInt / 2 ^ k) := by
  rw [BitVec.sshiftRight_eq, Int.shiftRight_eq_div_pow]
  norm_cast

theorem sethiValue_eq_ofNat (imm22 : BitVec 22) : sethiValue imm22 = BitVec.ofNat 32 (imm22.toNat * 1024) := by
  have h := imm22.isLt
  apply BitVec.eq_of_toNat_eq
  rw [sethiValue, BitVec.toNat_append, BitVec.toNat_ofNat, BitVec.toNat_ofNat, Nat.zero_mod, Nat.or_zero, Nat.shiftLeft_eq]
  omega

/-- Settles O12. -/
theorem shiftsAndSethi : Obligations.ShiftsAndSethi := by
  intro s rd rs1 op imm22 a k
  rw [← shiftLeft_eq_ofNat, ← shiftRight_eq_ofNat, ← sshiftRight_eq_ofInt, ← sethiValue_eq_ofNat]
  exact ⟨shiftCount_lt s op, completes_of_writeResult rfl, completes_of_writeResult rfl, completes_of_writeResult rfl,
    completes_of_writeResult rfl⟩

/-! ## Tagged arithmetic (R366 to R369) -/

theorem tagged_eq_anyTag (a b : Word) : tagged a b = anyTag a b := by
  have htag (x : Word) : (x.extractLsb' 0 2 != 0#2) = decide (x.toNat % 4 ≠ 0) := by
    rw [bne, beq_eq_decide, ← decide_not]
    refine decide_eq_decide.mpr (not_congr ⟨fun h => ?_, fun h => BitVec.eq_of_toNat_eq ?_⟩)
    · simpa using congrArg BitVec.toNat h
    · simpa using h
  rw [tagged, anyTag, htag, htag, Bool.decide_or]

/-- The codes of a tagged instruction, on top of those of the plain one. -/
theorem orTag_setIcc (s : State) (f : Icc) (a b : Word) : orTag (s.setIcc f) a b = s.setIcc (f.withTags a b) := by
  rw [Icc.withTags, tagged_eq_anyTag]
  rfl

/-- A tagged instruction of the trapping kind whose V is 0. -/
theorem writeTaggedTrap_of_not_v {s : State} {rd : RegNum} {v : Word} {f : Icc} (h : f.v = false) :
    writeTaggedTrap s rd v f = writeResultCc s rd v f := if_neg (Bool.eq_false_iff.mp h)

theorem writeTaggedTrap_of_v {s : State} {rd : RegNum} {v : Word} {f : Icc} (h : f.v = true) :
    writeTaggedTrap s rd v f = takeTrap s ttTagOverflow := if_pos h

/-- Settles O13: the flags are those of the sum or difference with V also set by a tag, and V alone decides whether a
trapping form traps. -/
theorem taggedArithmetic : Obligations.TaggedArithmetic := by
  intro s rd rs1 op a b p m
  have hp : p = s.setIcc ((addFlags a b (a + b)).withTags a b) := by
    rw [show p = orTag (afterSum s a b false) a b from rfl, afterSum_eq, add_zero_bit, orTag_setIcc]
  have hm : m = s.setIcc ((subFlags a b (a - b)).withTags a b) := by
    rw [show m = orTag (afterDifference s a b false) a b from rfl, afterDifference_eq, sub_zero_bit, orTag_setIcc]
  rw [hp, hm, ← sum_eq_ofNat, ← difference_eq_ofInt]
  exact ⟨completes_of_writeCc rfl rfl, completes_of_writeCc rfl rfl,
    fun h => completes_of_writeCc (writeTaggedTrap_of_not_v h) rfl, fun h => traps_of_exec (writeTaggedTrap_of_v h),
    fun h => completes_of_writeCc (writeTaggedTrap_of_not_v h) rfl, fun h => traps_of_exec (writeTaggedTrap_of_v h)⟩

end Sys2Proof.Machine

namespace Sys2Proof.Machine

/-! ## Fields of words as numbers -/

theorem toNat_append_eq {n m : Nat} (x : BitVec n) (y : BitVec m) : (x ++ y).toNat = x.toNat * 2 ^ m + y.toNat := by
  rw [BitVec.toNat_append, ← Nat.shiftLeft_add_eq_or_of_lt y.isLt, Nat.shiftLeft_eq]

theorem toNat_extract_eq {n : Nat} (x : BitVec n) (k m : Nat) : (x.extractLsb' k m).toNat = x.toNat / 2 ^ k % 2 ^ m := by
  rw [BitVec.extractLsb'_toNat, Nat.shiftRight_eq_div_pow]

/-- A field that reaches up to the top bit is a quotient. -/
theorem toNat_extract_top {n : Nat} (x : BitVec n) {k m : Nat} (h : k + m = n) : (x.extractLsb' k m).toNat = x.toNat / 2 ^ k := by
  rw [toNat_extract_eq]
  refine Nat.mod_eq_of_lt (Nat.div_lt_of_lt_mul ?_)
  rw [← Nat.pow_add, h]
  exact x.isLt

/-! ## Results with condition codes (spec/45_v8_base_alu.md R340) -/

/-- The template of R340 with condition codes, on a state in which the instruction has already written other fields. -/
theorem completes_of_writeCc_on {i : Instr} {s u : State} {rd : RegNum} {v : Word} {f : Icc}
    (h : exec i s = writeResultCc u rd v f)
    (hg : u.globals = s.globals) (hw : u.windows = s.windows) (hc : u.cfg = s.cfg) (hwin : u.window = s.window) :
    Completes i s (u.setIcc f) rd v :=
  completes_of_write (by rw [h, writeResultCc, State.setReg_setIcc]) hg hw hc hwin

/-! ## MULScc (spec/45_v8_base_alu.md R370) -/

/-- Shifting a word right by one with `b` in bit 31, as a number. -/
theorem shiftRightIn_eq_ofNat (b : Bool) (x : Word) :
    BitVec.ofBool b ++ x.extractLsb' 1 31 = BitVec.ofNat 32 (x.toNat / 2 + if b = true then 2 ^ 31 else 0) := by
  have hx := x.isLt
  apply BitVec.eq_of_toNat_eq
  rw [toNat_append_eq, toNat_extract_top x rfl, BitVec.toNat_ofNat]
  cases b <;> simp <;> omega

theorem getLsbD_zero_eq_true_iff {n : Nat} (x : BitVec n) : x.getLsbD 0 = true ↔ x.toNat % 2 = 1 := by
  rw [BitVec.getLsbD, Nat.testBit_zero, decide_eq_true_iff]

/-- Settles O14: the two shifts are divisions by two with a bit entering at the top, and the flags are those of the sum. -/
theorem multiplyStep : Obligations.MultiplyStep := by
  intro s rd rs1 op a x m
  have hexec : exec (.mulscc rd rs1 op) s
      = writeResultCc { s with y := BitVec.ofNat 32 (s.y.toNat / 2 + if a.toNat % 2 = 1 then 2 ^ 31 else 0) } rd (x + m)
          (addFlags x m (x + m)) := by
    simp only [x, m, ← getLsbD_zero_eq_true_iff, ← shiftRightIn_eq_ofNat]
    rfl
  rw [afterSum_eq, add_zero_bit, ← sum_eq_ofNat]
  exact completes_of_writeYCc hexec

/-! ## Multiply (R371 to R374; spec/42_mac.md R277) -/

theorem ofInt64_low (x : Int) : (BitVec.ofInt 64 x).extractLsb' 0 32 = BitVec.ofInt 32 x := by
  apply BitVec.eq_of_toNat_eq
  rw [BitVec.extractLsb'_toNat, BitVec.toNat_ofInt, BitVec.toNat_ofInt, Nat.shiftRight_zero]
  omega

theorem ofInt64_high (x : Int) : (BitVec.ofInt 64 x).extractLsb' 32 32 = BitVec.ofInt 32 (x / 2 ^ 32) := by
  apply BitVec.eq_of_toNat_eq
  rw [BitVec.extractLsb'_toNat, BitVec.toNat_ofInt, BitVec.toNat_ofInt, Nat.shiftRight_eq_div_pow]
  omega

theorem unsignedProduct_eq (a b : Word) : unsignedProduct a b = BitVec.ofInt 64 (a.toNat * b.toNat) := by
  rw [unsignedProduct, ← Int.natCast_mul, BitVec.ofInt_natCast]

/-- The sign of the exact signed product is the top bit of its 64-bit word. -/
theorem signedProduct_msb (a b : Word) : (signedProduct a b).msb = decide (a.toInt * b.toInt < 0) := by
  have hle : a.toInt * b.toInt ≤ 2 ^ 62 := BitVec.toInt_mul_toInt_le
  have hge : -2 ^ 62 ≤ a.toInt * b.toInt := BitVec.le_toInt_mul_toInt
  rw [BitVec.msb_eq_toInt, signedProduct, BitVec.toInt_ofInt, Int.bmod_eq_of_le (by omega) (by omega)]

/-- What a multiply with the exact product `x` leaves in Y and the accumulator (R277). -/
def withProduct (s : State) (x : Int) : State :=
  { s with
    y := BitVec.ofInt 32 (x / 2 ^ 32)
    accLo := if s.cfg.mac = true then BitVec.ofInt 32 x else s.accLo
    accHi := if s.cfg.mac = true then (if x < 0 then BitVec.ofNat 32 (2 ^ s.cfg.accHiWidth - 1) else 0#32) else s.accHi }

theorem setProduct_ofInt (s : State) (x : Int) : s.setProduct (BitVec.ofInt 64 x) (decide (x < 0)) = withProduct s x := by
  simp only [State.setProduct, withProduct, ofInt64_low, ofInt64_high, decide_eq_true_eq, lowMask]

theorem setProduct_unsigned (s : State) (a b : Word) :
    s.setProduct (unsignedProduct a b) false = withProduct s (a.toNat * b.toNat) := by
  have hsign : false = decide ((a.toNat : Int) * b.toNat < 0) :=
    (decide_eq_false (Int.not_lt.mpr (Int.mul_nonneg (Int.natCast_nonneg _) (Int.natCast_nonneg _)))).symm
  rw [← setProduct_ofInt, ← unsignedProduct_eq, ← hsign]

theorem setProduct_signed (s : State) (a b : Word) :
    s.setProduct (signedProduct a b) (signedProduct a b).msb = withProduct s (a.toInt * b.toInt) := by
  rw [← setProduct_ofInt, signedProduct_msb]
  rfl

/-- Settles O15: a multiply writes the exact product's words, and its sign is that product's. -/
theorem multiply : Obligations.Multiply := by
  intro s rd rs1 op a b u p base
  have hu : (unsignedProduct a b).extractLsb' 0 32 = BitVec.ofInt 32 u := by rw [unsignedProduct_eq, ofInt64_low]
  have hp : (signedProduct a b).extractLsb' 0 32 = BitVec.ofInt 32 p := ofInt64_low p
  have hbu : base u = s.setProduct (unsignedProduct a b) false := (setProduct_unsigned s a b).symm
  have hbp : base p = s.setProduct (signedProduct a b) (signedProduct a b).msb := (setProduct_signed s a b).symm
  rw [afterResult_eq, afterResult_eq, hbu, hbp, ← hu, ← hp]
  exact ⟨completes_of_write rfl rfl rfl rfl rfl, completes_of_writeCc_on rfl rfl rfl rfl rfl,
    completes_of_write rfl rfl rfl rfl rfl, completes_of_writeCc_on rfl rfl rfl rfl rfl⟩

/-! ## Divide (R375 to R378) -/

theorem dividend_toInt (y a : Word) : (y ++ a).toInt = y.toInt * 2 ^ 32 + a.toNat := by
  rw [BitVec.toInt_append, if_neg (by decide), Int.mul_comm]

/-- The unsigned quotient saturates at the largest word. -/
theorem unsignedQuotient_eq (y a b : Word) :
    let q : Int := (y.toNat * 2 ^ 32 + a.toNat) / b.toNat
    unsignedQuotient y a b = (BitVec.ofInt 32 (min q (2 ^ 32 - 1)), decide (2 ^ 32 ≤ q)) := by
  intro q
  have hq : q = (((y ++ a).toNat / b.toNat : Nat) : Int) := by rw [toNat_append_eq]; norm_cast
  simp only [unsignedQuotient]
  split
  case isTrue h =>
    rw [min_eq_right (by omega), decide_eq_true (by omega)]
    rfl
  case isFalse h =>
    rw [min_eq_left (by omega), decide_eq_false (by omega), hq, BitVec.ofInt_natCast]

/-- The signed quotient saturates at both ends of the signed words. -/
theorem signedQuotient_eq (y a b : Word) :
    let q : Int := (y.toInt * 2 ^ 32 + a.toNat).tdiv b.toInt
    signedQuotient y a b = (BitVec.ofInt 32 (max (-2 ^ 31) (min q (2 ^ 31 - 1))), decide (2 ^ 31 ≤ q ∨ q < -2 ^ 31)) := by
  intro q
  simp only [signedQuotient, dividend_toInt]
  split
  case isTrue h =>
    rw [min_eq_right (by omega), max_eq_right (by decide), decide_eq_true (.inl h)]
    rfl
  case isFalse hhigh =>
  split
  case isTrue h =>
    rw [min_eq_left (by omega), max_eq_left (by omega), decide_eq_true (.inr h)]
    rfl
  case isFalse hlow =>
    rw [min_eq_left (by omega), max_eq_right (by omega), decide_eq_false (by omega)]

/-- Settles O16: the divisor decides whether a divide traps, and otherwise the quotient is the saturated one. -/
theorem divide : Obligations.Divide := by
  intro s rd rs1 op a b q qs ru rs
  have hu := unsignedQuotient_eq s.y a b
  have hs := signedQuotient_eq s.y a b
  constructor
  · intro hb
    rw [afterResult_eq, afterResult_eq]
    refine ⟨completes_of_writeResult ?_, completes_of_writeCc ?_ rfl, completes_of_writeResult ?_,
      completes_of_writeCc ?_ rfl⟩
    · exact (if_neg hb).trans (congrArg (fun r => writeResult s rd r.1) hu)
    · exact (if_neg hb).trans (congrArg (fun r => writeResultCc s rd r.1 (resultFlags r.1 r.2)) hu)
    · exact (if_neg hb).trans (congrArg (fun r => writeResult s rd r.1) hs)
    · exact (if_neg hb).trans (congrArg (fun r => writeResultCc s rd r.1 (resultFlags r.1 r.2)) hs)
  · intro hb i hi
    simp only [List.mem_cons, List.not_mem_nil, or_false] at hi
    rcases hi with rfl | rfl | rfl | rfl <;> exact traps_of_exec (if_pos hb)

/-! ## Multiply-accumulate (spec/42_mac.md R270 to R276) -/

theorem and_lowMask_toNat {n : Nat} (hn : n ≤ 32) (x : Word) : (x &&& lowMask n).toNat = x.toNat % 2 ^ n := by
  have hp : 2 ^ n ≤ 2 ^ 32 := Nat.pow_le_pow_right (by decide) hn
  have h1 : 0 < 2 ^ n := Nat.two_pow_pos n
  rw [BitVec.toNat_and, lowMask, BitVec.toNat_ofNat, Nat.mod_eq_of_lt (by omega), Nat.and_two_pow_sub_one_eq_mod]

/-- The accumulator HI :: Y :: LO, of which only `accHiWidth` bits of HI exist. -/
theorem accNat_eq {s : State} (h : s.cfg.accHiWidth ≤ 32) :
    s.accNat = s.accHi.toNat % 2 ^ s.cfg.accHiWidth * 2 ^ 64 + s.y.toNat * 2 ^ 32 + s.accLo.toNat := by
  rw [State.accNat, and_lowMask_toNat h]

theorem accNat_lt {s : State} (h : s.cfg.accHiWidth ≤ 32) : s.accNat < 2 ^ accWidth s.cfg := by
  have hhi := Nat.mod_lt s.accHi.toNat (Nat.two_pow_pos s.cfg.accHiWidth)
  have hy := s.y.isLt
  have hlo := s.accLo.isLt
  rw [accNat_eq h, accWidth, pow_add]
  generalize 2 ^ s.cfg.accHiWidth = m at *
  omega

/-- The bits from `k` on of the low `k + n` bits. -/
theorem emod_pow_ediv (x : Int) (k n : Nat) : x % 2 ^ (k + n) / 2 ^ k = x / 2 ^ k % 2 ^ n := by
  have hk : (2 ^ k : Int) ≠ 0 := pow_ne_zero _ (by decide)
  rw [pow_add, Int.emod_def, Int.emod_def, Int.ediv_ediv_of_nonneg (by positivity), Int.mul_assoc, Int.sub_eq_add_neg,
    ← Int.mul_neg,
    Int.add_mul_ediv_left _ _ hk, ← Int.sub_eq_add_neg]

theorem ofNat_eq_ofInt {r : Nat} {x : Int} (h : (r : Int) % 2 ^ 32 = x % 2 ^ 32) : BitVec.ofNat 32 r = BitVec.ofInt 32 x := by
  apply BitVec.eq_of_toNat_eq
  rw [BitVec.toNat_ofNat, BitVec.toNat_ofInt]
  omega

/-- The words of the accumulator, from a result that is kept modulo twice the accumulator's range (R270). -/
theorem accumulator_words {r n : Nat} {x : Int} (hn : n ≤ 32) (hr : (r : Int) = x % 2 ^ (64 + n + 1)) :
    BitVec.ofNat 32 (r / 2 ^ 64) &&& lowMask n = BitVec.ofInt 32 (x / 2 ^ 64 % 2 ^ n)
    ∧ BitVec.ofNat 32 (r / 2 ^ 32) = BitVec.ofInt 32 (x / 2 ^ 32) ∧ BitVec.ofNat 32 r = BitVec.ofInt 32 x := by
  refine ⟨?_, ofNat_eq_ofInt ?_, ofNat_eq_ofInt ?_⟩
  · have h64 : ((r / 2 ^ 64 : Nat) : Int) = x / 2 ^ 64 % 2 ^ (n + 1) := by
      rw [← emod_pow_ediv, ← Nat.add_assoc, ← hr]
      norm_cast
    have hmod : (r / 2 ^ 64 % 2 ^ 32 % 2 ^ n : Nat) = x / 2 ^ 64 % 2 ^ n := by
      rw [Nat.mod_mod_of_dvd _ (Nat.pow_dvd_pow 2 hn)]
      rw [Int.natCast_mod, h64, Int.natCast_pow]
      exact Int.emod_emod_of_dvd _ (pow_dvd_pow 2 (Nat.le_succ n))
    have hlt : x / 2 ^ 64 % 2 ^ n < 2 ^ 32 :=
      (Int.emod_lt_of_pos _ (by positivity)).trans_le (pow_le_pow_right₀ (by decide) hn)
    apply BitVec.eq_of_toNat_eq
    rw [and_lowMask_toNat hn, BitVec.toNat_ofNat, BitVec.toNat_ofInt]
    omega
  · have h32 : ((r / 2 ^ 32 : Nat) : Int) = x / 2 ^ 32 % 2 ^ (32 + n + 1) := by
      rw [← emod_pow_ediv, show 32 + (32 + n + 1) = 64 + n + 1 by omega, ← hr]
      norm_cast
    rw [h32]
    exact Int.emod_emod_of_dvd _ (pow_dvd_pow 2 (by omega))
  · rw [hr]
    exact Int.emod_emod_of_dvd _ (pow_dvd_pow 2 (by omega))

/-- The exact sum of a multiply-accumulate (R270). -/
def macSum (s : State) (isSigned : Bool) (a b : Word) : Int :=
  if isSigned then a.toInt * b.toInt + signedOf (accWidth s.cfg) s.accNat else a.toNat * b.toNat + s.accNat

theorem macResult_eq (s : State) (isSigned : Bool) (a b : Word) :
    (macResult s isSigned a b : Int) = macSum s isSigned a b % 2 ^ (accWidth s.cfg + 1) := by
  have hsum : macResult s isSigned a b = (macSum s isSigned a b % 2 ^ (accWidth s.cfg + 1)).toNat := by
    cases isSigned <;> rfl
  rw [hsum, Int.toNat_of_nonneg (Int.emod_nonneg _ (pow_ne_zero _ (by decide)))]

theorem testBit_top {r k : Nat} (h : r < 2 ^ (k + 1)) : r.testBit k = decide (2 ^ k ≤ r) := by
  rw [pow_succ] at h
  rw [Nat.testBit_eq_decide_div_mod_eq]
  refine decide_eq_decide.mpr ?_
  rcases Nat.lt_or_ge r (2 ^ k) with hlt | hge
  · rw [Nat.div_eq_of_lt hlt]
    omega
  · rw [Nat.div_eq_of_lt_le (k := 1) (by omega) (by omega)]
    omega

/-- A number that fits one bit more than `k + 1` bits, as two's complement, fits `k + 1` bits unless its top bits differ. -/
theorem testBit_bne_iff {r k : Nat} {x : Int} (hge : -2 ^ (k + 1) ≤ x) (hlt : x < 2 ^ (k + 1))
    (hr : (r : Int) = x % 2 ^ (k + 2)) :
    (r.testBit (k + 1) != r.testBit k) = decide (x < -2 ^ k ∨ 2 ^ k ≤ x) := by
  have hpos : 0 < 2 ^ k := Nat.two_pow_pos k
  have h1 : 2 ^ (k + 1) = 2 * 2 ^ k := pow_succ' ..
  have h2 : 2 ^ (k + 2) = 4 * 2 ^ k := by rw [pow_succ', h1]; omega
  have hk : (2 : Int) ^ k = ((2 ^ k : Nat) : Int) := by norm_cast
  have hk1 : (2 : Int) ^ (k + 1) = ((2 * 2 ^ k : Nat) : Int) := by rw [← h1]; norm_cast
  have hk2 : (2 : Int) ^ (k + 2) = ((4 * 2 ^ k : Nat) : Int) := by rw [← h2]; norm_cast
  rw [hk1] at hge hlt
  rw [hk2] at hr
  have hrx : (r : Int) = if 0 ≤ x then x else x + (4 * 2 ^ k : Nat) := by
    split
    case isTrue h => rw [hr, Int.emod_eq_of_lt h (by omega)]
    case isFalse h => rw [hr, ← Int.add_emod_right, Int.emod_eq_of_lt (by omega) (by omega)]
  have hr4 : r < 2 ^ (k + 1 + 1) := by
    rw [h2]
    split at hrx <;> omega
  have hlow : r.testBit k = (r % 2 ^ (k + 1)).testBit k := by
    rw [Nat.testBit_mod_two_pow, decide_eq_true (Nat.lt_succ_self k), Bool.true_and]
  have hmod : r % (2 * 2 ^ k) = if r < 2 * 2 ^ k then r else r - 2 * 2 ^ k := by
    split
    case isTrue h => exact Nat.mod_eq_of_lt h
    case isFalse h => rw [Nat.mod_eq_sub_mod (by omega), Nat.mod_eq_of_lt (by omega)]
  rw [hlow, testBit_top hr4, testBit_top (Nat.mod_lt _ (Nat.two_pow_pos _)), h1, hmod, hk, Bool.eq_iff_iff, bne_iff_ne, ne_eq,
    decide_eq_decide, decide_eq_true_iff]
  split at hrx <;> split <;> omega

theorem accWidth_eq (c : Config) : accWidth c = 63 + c.accHiWidth + 1 := by
  rw [accWidth]
  omega

/-- Both sums stay within the extra bit: a product has at most 64 bits. -/
theorem two_pow_product_le (c : Config) : 2 ^ 63 ≤ 2 ^ (63 + c.accHiWidth) :=
  Nat.pow_le_pow_right (by decide) (Nat.le_add_right ..)

/-- The extra bit of an unsigned result says that the sum reaches 2^W (R275). -/
theorem macCarry_unsigned {s : State} (h : s.cfg.accHiWidth ≤ 32) (a b : Word) :
    macCarry s.cfg false (macResult s false a b) = decide (2 ^ accWidth s.cfg ≤ macSum s false a b) := by
  have hacc := accNat_lt h
  have hmin := two_pow_product_le s.cfg
  have hmul : a.toNat * b.toNat < 2 ^ 32 * 2 ^ 32 := Nat.mul_lt_mul'' a.isLt b.isLt
  have hpow : 2 ^ accWidth s.cfg = 2 * 2 ^ (63 + s.cfg.accHiWidth) := by rw [accWidth_eq, pow_succ']
  have hlt : a.toNat * b.toNat + s.accNat < 2 ^ (accWidth s.cfg + 1) := by
    rw [pow_succ]
    omega
  have hx : macSum s false a b = ((a.toNat * b.toNat + s.accNat : Nat) : Int) := by
    rw [macSum, if_neg Bool.false_ne_true]
    norm_cast
  have hr : macResult s false a b = a.toNat * b.toNat + s.accNat := by
    have hsum := macResult_eq s false a b
    rw [hx, Int.emod_eq_of_lt (Int.natCast_nonneg _) (by exact_mod_cast hlt)] at hsum
    exact_mod_cast hsum
  rw [macCarry, Bool.not_false, Bool.true_and, hr, hx, testBit_top hlt]
  exact decide_eq_decide.mpr (by norm_cast)

/-- The two top bits of a signed result differ when the sum is no W-bit signed number (R275). -/
theorem macOverflow_signed {s : State} (h : s.cfg.accHiWidth ≤ 32) (a b : Word) :
    macOverflow s.cfg true (macResult s true a b)
      = decide (macSum s true a b < -2 ^ (accWidth s.cfg - 1) ∨ 2 ^ (accWidth s.cfg - 1) ≤ macSum s true a b) := by
  have hr := macResult_eq s true a b
  have hacc := accNat_lt h
  have hmin := two_pow_product_le s.cfg
  have hle : a.toInt * b.toInt ≤ 2 ^ 62 := BitVec.toInt_mul_toInt_le
  have hge : -2 ^ 62 ≤ a.toInt * b.toInt := BitVec.le_toInt_mul_toInt
  have hpow : 2 ^ (63 + s.cfg.accHiWidth + 1) = 2 * 2 ^ (63 + s.cfg.accHiWidth) := pow_succ' ..
  have hcast : (2 : Int) ^ (63 + s.cfg.accHiWidth + 1) = ((2 * 2 ^ (63 + s.cfg.accHiWidth) : Nat) : Int) := by
    rw [← hpow]
    norm_cast
  have hacc' : -(2 ^ (63 + s.cfg.accHiWidth) : Nat) ≤ signedOf (accWidth s.cfg) s.accNat
      ∧ signedOf (accWidth s.cfg) s.accNat < (2 ^ (63 + s.cfg.accHiWidth) : Nat) := by
    rw [signedOf]
    rw [accWidth_eq] at hacc ⊢
    rw [Nat.add_sub_cancel, hcast]
    split <;> omega
  rw [macOverflow, Bool.true_and]
  rw [accWidth_eq] at hr ⊢
  rw [Nat.add_sub_cancel]
  refine testBit_bne_iff ?_ ?_ hr <;> rw [hcast, macSum, if_pos rfl] <;> omega

/-- The accumulator and the accrued flags after a multiply-accumulate, from the exact sum. -/
theorem setAccumulator_eq {s : State} (h : s.cfg.accHiWidth ≤ 32) (isSigned : Bool) (a b : Word) :
    s.setAccumulator isSigned (macResult s isSigned a b) = { s with
      accHi := BitVec.ofInt 32 (macSum s isSigned a b / 2 ^ 64 % 2 ^ s.cfg.accHiWidth)
      y := BitVec.ofInt 32 (macSum s isSigned a b / 2 ^ 32)
      accLo := BitVec.ofInt 32 (macSum s isSigned a b)
      accOverflow := s.accOverflow || macOverflow s.cfg isSigned (macResult s isSigned a b)
      accCarry := s.accCarry || macCarry s.cfg isSigned (macResult s isSigned a b) } := by
  obtain ⟨hhi, hy, hlo⟩ := accumulator_words h (macResult_eq s isSigned a b)
  rw [State.setAccumulator, hhi, hy, hlo]

/-- The low word of the sum: r[rd], and what N and Z look at. -/
theorem macResult_low {s : State} (h : s.cfg.accHiWidth ≤ 32) (isSigned : Bool) (a b : Word) :
    BitVec.ofNat 32 (macResult s isSigned a b) = BitVec.ofInt 32 (macSum s isSigned a b) :=
  (accumulator_words h (macResult_eq s isSigned a b)).2.2

theorem ofInt_signs (x : Int) : (BitVec.ofInt 32 x).msb = decide (2 ^ 31 ≤ x % 2 ^ 32)
    ∧ (BitVec.ofInt 32 x == 0#32) = decide (x % 2 ^ 32 = 0) := by
  constructor
  · rw [BitVec.msb_eq_decide, BitVec.toNat_ofInt]
    exact decide_eq_decide.mpr (by omega)
  · rw [eq_zero_iff_toNat, BitVec.toNat_ofInt]
    exact decide_eq_decide.mpr (by omega)

/-- The template MAC without condition codes (R270). -/
theorem mac_completes {i : Instr} {s : State} (isSigned : Bool) {rd rs1 : RegNum} {op : Operand2} {a b : Word}
    (hi : exec i s = mac isSigned rd rs1 op s) (ha : s.reg rs1 = a) (hb : operand2 s op = b) :
    Completes i s (s.setAccumulator isSigned (macResult s isSigned a b)) rd (BitVec.ofNat 32 (macResult s isSigned a b)) := by
  subst ha hb
  exact completes_of_write hi rfl rfl rfl rfl

/-- The template MAC with condition codes (R270, R275). -/
theorem macCc_completes {i : Instr} {s : State} (isSigned : Bool) {rd rs1 : RegNum} {op : Operand2} {a b : Word}
    (hi : exec i s = macCc isSigned rd rs1 op s) (ha : s.reg rs1 = a) (hb : operand2 s op = b) :
    let r := macResult s isSigned a b
    Completes i s ((s.setAccumulator isSigned r).setIcc
        { n := (BitVec.ofNat 32 r).msb, z := BitVec.ofNat 32 r == 0#32, v := macOverflow s.cfg isSigned r
          c := macCarry s.cfg isSigned r }) rd (BitVec.ofNat 32 r) := by
  subst ha hb
  exact completes_of_writeCc_on hi rfl rfl rfl rfl

theorem signedOf_eq (w x : Nat) : signedOf w x = if (2 : Int) ^ (w - 1) ≤ x then (x : Int) - 2 ^ w else x := by
  rw [signedOf]
  norm_cast

/-- Settles O19: the result is kept on one bit more than the accumulator has, which is enough to tell a carry and an
overflow of the exact sum. -/
theorem multiplyAccumulate : Obligations.MultiplyAccumulate := by
  intro s rd rs1 op h a b w acc u p carry exceeds base codes
  have hacc : (s.accNat : Int) = acc := congrArg Nat.cast (accNat_eq h)
  have hu : macSum s false a b = u := by rw [macSum, if_neg Bool.false_ne_true, hacc]
  have hp : macSum s true a b = p := by
    rw [macSum, if_pos rfl, signedOf_eq, hacc]
    rfl
  have hcarry : macCarry s.cfg false (macResult s false a b) = carry := by rw [macCarry_unsigned h, hu]; rfl
  have hexceeds : macOverflow s.cfg true (macResult s true a b) = exceeds := by rw [macOverflow_signed h, hp]; rfl
  have hbu : s.setAccumulator false (macResult s false a b) = base u false carry := by
    rw [setAccumulator_eq h, hu, hcarry]
    rfl
  have hbp : s.setAccumulator true (macResult s true a b) = base p exceeds false := by
    rw [setAccumulator_eq h, hp, hexceeds]
    rfl
  have hlu : BitVec.ofNat 32 (macResult s false a b) = BitVec.ofInt 32 u := by rw [macResult_low h, hu]
  have hlp : BitVec.ofNat 32 (macResult s true a b) = BitVec.ofInt 32 p := by rw [macResult_low h, hp]
  have hcu := macCc_completes (i := .umaccc rd rs1 op) (s := s) (a := a) (b := b) false rfl rfl rfl
  have hcp := macCc_completes (i := .smaccc rd rs1 op) (s := s) (a := a) (b := b) true rfl rfl rfl
  obtain ⟨hnu, hzu⟩ := ofInt_signs u
  obtain ⟨hnp, hzp⟩ := ofInt_signs p
  simp only [hbu, hlu, hnu, hzu, hcarry] at hcu
  simp only [hbp, hlp, hnp, hzp, hexceeds] at hcp
  refine ⟨?_, hcu, ?_, hcp⟩
  · rw [← hbu, ← hlu]
    exact mac_completes false rfl rfl rfl
  · rw [← hbp, ← hlp]
    exact mac_completes true rfl rfl rfl

end Sys2Proof.Machine

namespace Sys2Proof.Machine

/-! ## Operands and targets (spec/30_encoding.md R206 to R208, R217; spec/46_v8_base_control.md R401, R404) -/

theorem signExtend7_toNat_mod : ∀ n : BitVec 7, (n.signExtend 32).toNat % 128 = n.toNat := by decide

/-- The low seven bits of a sum. -/
theorem low7_add_toNat (x y : Word) : ((x + y).extractLsb' 0 7).toNat = (x.toNat + y.toNat % 128) % 128 := by
  rw [BitVec.extractLsb'_toNat, BitVec.toNat_add, Nat.shiftRight_zero]
  omega

theorem ofInt_toNat_add (x : Word) (k : Int) : x + BitVec.ofInt 32 k = BitVec.ofInt 32 (x.toNat + k) := by
  rw [BitVec.ofInt_add, BitVec.ofInt_natCast, BitVec.ofNat_toNat, BitVec.setWidth_eq]

theorem branchTarget_eq_ofInt (pc : Word) (disp22 : BitVec 22) :
    branchTarget pc disp22 = BitVec.ofInt 32 (pc.toNat + 4 * disp22.toInt) := by
  rw [branchTarget, BitVec.signExtend, BitVec.toInt_append_zero, ofInt_toNat_add]
  rfl

theorem callTarget_eq_ofNat (pc : Word) (disp30 : BitVec 30) :
    callTarget pc disp30 = BitVec.ofNat 32 (pc.toNat + 4 * disp30.toNat) := by
  have hwords : (disp30 ++ 0#2 : Word).toNat = 4 * disp30.toNat := by
    rw [BitVec.toNat_append, BitVec.toNat_ofNat, Nat.zero_mod, Nat.or_zero, Nat.shiftLeft_eq, Nat.mul_comm]
  apply BitVec.eq_of_toNat_eq
  rw [callTarget, BitVec.toNat_add, hwords, BitVec.toNat_ofNat]

/-- Settles O5. -/
theorem operandValues : Obligations.OperandValues := by
  intro s rs1 rs2 simm13 shcnt n op pc disp22 disp30
  refine ⟨rfl, rfl, ?_, rfl, ?_, ?_, BitVec.toNat_add .., BitVec.toNat_add .., branchTarget_eq_ofInt pc disp22,
    callTarget_eq_ofNat pc disp30, fun k => BitVec.getLsbD_xor⟩
  · rw [shiftCount, BitVec.extractLsb'_toNat, Nat.shiftRight_zero]
  · rw [trapNumber, low7_add_toNat, Nat.add_mod_mod]
  · rw [trapNumber, low7_add_toNat, signExtend7_toNat_mod]

/-! ## Control transfers (spec/46_v8_base_control.md R400, R408) -/

theorem controlTransfer_of_not_condDelay {s : State} (h : s.condDelay = false) (k : Host.Outcome State Fault Refusal) :
    controlTransfer s k = k := if_neg (Bool.eq_false_iff.mp h)

theorem controlTransfer_of_condDelay {s : State} (h : s.condDelay = true) (k : Host.Outcome State Fault Refusal) :
    controlTransfer s k = .refused .controlCouple := if_pos h

/-- Cases (b), (c) and (d) of R400. -/
theorem branches_of_conditional {i : Instr} {s : State} {taken a : Bool} {d : BitVec 22} (h : s.condDelay = false)
    (hi : exec i s = conditionalBranch taken a d s) : Branches i s taken a d := by
  rw [Branches, hi, conditionalBranch, controlTransfer_of_not_condDelay h, branchTarget_eq_ofInt]
  cases taken <;> cases a <;> rfl

/-- Settles O20: fourteen branches are the conditional one at their test, and BA and BN have no test. -/
theorem branchInstructions : Obligations.BranchInstructions := by
  intro s a d h
  refine ⟨branches_of_conditional h rfl, branches_of_conditional h rfl, branches_of_conditional h rfl,
    branches_of_conditional h rfl, branches_of_conditional h rfl, branches_of_conditional h rfl, branches_of_conditional h rfl,
    branches_of_conditional h rfl, branches_of_conditional h rfl, branches_of_conditional h rfl, branches_of_conditional h rfl,
    branches_of_conditional h rfl, branches_of_conditional h rfl, branches_of_conditional h rfl, ?_⟩
  rw [← branchTarget_eq_ofInt]
  exact ⟨controlTransfer_of_not_condDelay h _, controlTransfer_of_not_condDelay h _, controlTransfer_of_not_condDelay h _,
    controlTransfer_of_not_condDelay h _⟩

/-! ## CALL and JMPL (R404, R405) -/

theorem misalignedTarget_eq (ea : Word) : misalignedTarget ea = decide (ea.toNat % 4 ≠ 0) := by
  rw [misalignedTarget, bne, beq_eq_decide, ← decide_not]
  refine decide_eq_decide.mpr (not_congr ⟨fun h => ?_, fun h => BitVec.eq_of_toNat_eq ?_⟩)
  · simpa using congrArg BitVec.toNat h
  · simpa using h

/-- A jump that links: r[rd] receives the address of the instruction. -/
theorem link_and_transfer (s : State) (rd : RegNum) (target : Word) : let t := (s.setReg rd s.pc).transfer target
    t.reg rd = shown rd s.pc ∧ OnlyRegisters s t s.window [rd]
    ∧ t = { s with globals := t.globals, windows := t.windows, pc := s.npc, npc := target, condDelay := false } := by
  refine ⟨?_, (s.setRegIn_only s.window rd s.pc).congr rfl rfl rfl rfl rfl, ?_⟩
  · have hwin : ((s.setReg rd s.pc).transfer target).window = s.window := by simp [State.window]
    rw [State.reg, hwin]
    exact (State.regIn_congr rfl rfl rfl _ _).trans (s.regIn_setRegIn_same s.window rd s.pc)
  · rw [State.setReg, State.setRegIn_eq]
    rfl

/-- Settles O21: both link and transfer, to the target of the old registers. -/
theorem callAndJump : Obligations.CallAndJump := by
  intro s disp30 rd rs1 op h ea
  have hjmpl : exec (.jmpl rd rs1 op) s = if misalignedTarget ea then takeTrap s ttMemAddressNotAligned
      else .next ((s.setReg rd s.pc).transfer ea) := controlTransfer_of_not_condDelay h _
  rw [misalignedTarget_eq] at hjmpl
  refine ⟨?_, fun hal => ?_, fun hmis => ?_⟩
  · rw [← callTarget_eq_ofNat]
    exact ⟨_, controlTransfer_of_not_condDelay h _, link_and_transfer s 15#5 _⟩
  · rw [if_neg (by simp [hal])] at hjmpl
    exact ⟨_, hjmpl, link_and_transfer s rd ea⟩
  · rw [if_pos (by simp [hmis])] at hjmpl
    exact traps_of_exec hjmpl

/-! ## RETT (R406; spec/43_awp_wrpsr.md R292) -/

/-- RETT outside the delay slot of a conditional branch. -/
theorem exec_rett {s : State} (h : s.condDelay = false) (rs1 : RegNum) (op : Operand2) : exec (.rett rs1 op) s =
    if s.et then (if s.sup then takeTrap s ttIllegalInstruction else takeTrap s ttPrivilegedInstruction)
    else if !s.sup then takeTrap s ttPrivilegedInstruction
    else if s.windowInvalid s.nextWindow then takeTrap s ttWindowUnderflow
    else if misalignedTarget (effectiveAddress s rs1 op) then takeTrap s ttMemAddressNotAligned
    else .next (s.returnFromTrap (effectiveAddress s rs1 op)) := controlTransfer_of_not_condDelay h _

theorem nextWindow_toNat {s : State} (hn : s.cfg.nwindows ≤ 32) (hw : s.cwp.toNat < s.cfg.nwindows) :
    s.nextWindow.toNat = (s.cwp.toNat + 1) % s.cfg.nwindows := by
  have hlt := Nat.mod_lt (s.cwp.toNat + 1) (Nat.zero_lt_of_lt hw)
  rw [State.nextWindow, BitVec.toNat_ofNat]
  omega

theorem prevWindow_toNat {s : State} (hn : s.cfg.nwindows ≤ 32) (hw : s.cwp.toNat < s.cfg.nwindows) :
    s.prevWindow.toNat = (s.cwp.toNat + s.cfg.nwindows - 1) % s.cfg.nwindows := by
  have hlt := Nat.mod_lt (s.cwp.toNat + s.cfg.nwindows - 1) (Nat.zero_lt_of_lt hw)
  rw [State.prevWindow, BitVec.toNat_ofNat]
  omega

/-- Settles O22: the checks of RETT in their order, each with its trap. -/
theorem returnFromTrap : Obligations.ReturnFromTrap := by
  intro s rs1 op h hw hn ea w
  have hexec := exec_rett h rs1 op
  have hwin : s.windowInvalid s.nextWindow = s.wim.getLsbD w := by rw [State.windowInvalid, nextWindow_toNat hn hw]
  have hmis : misalignedTarget (effectiveAddress s rs1 op) = decide (ea.toNat % 4 ≠ 0) := misalignedTarget_eq ea
  rw [hwin, hmis] at hexec
  refine ⟨?_, ?_, ?_, ?_, ?_, ?_⟩
  · rintro ⟨het, hsup, hinv, hal⟩
    simp only [het, hsup, hinv, hal, Bool.false_eq_true, if_false, Bool.not_true, decide_not, decide_true] at hexec
    exact hexec
  · rintro ⟨het, hsup⟩
    simp only [het, hsup, if_true] at hexec
    exact traps_of_exec hexec
  · rintro ⟨het, hsup⟩
    simp only [het, hsup, if_true, Bool.false_eq_true, if_false] at hexec
    exact traps_of_exec hexec
  · rintro ⟨het, hsup⟩
    simp only [het, hsup, Bool.not_false, if_true, Bool.false_eq_true, if_false] at hexec
    exact traps_of_exec hexec
  · rintro ⟨het, hsup, hinv⟩
    simp only [het, hsup, hinv, Bool.not_true, if_true, Bool.false_eq_true, if_false] at hexec
    exact traps_of_exec hexec
  · rintro ⟨het, hsup, hinv, hne⟩
    rw [decide_eq_true hne] at hexec
    simp only [het, hsup, hinv, Bool.not_true, if_true, Bool.false_eq_true, if_false] at hexec
    exact traps_of_exec hexec

/-! ## Ticc (R407) -/

theorem ttSoftware_eq (n : BitVec 7) : ttSoftware n = BitVec.ofNat 8 (128 + n.toNat) := by
  revert n
  decide

theorem trapOn_spec {i : Instr} {s : State} {taken : Bool} {rs1 : RegNum} {op : TrapOperand}
    (h : exec i s = trapOn taken rs1 op s) :
    (taken = true → Traps i s (BitVec.ofNat 8 (128 + (trapNumber s rs1 op).toNat)))
    ∧ (taken = false → exec i s = .next { s with pc := s.npc, npc := s.npc + 4#32, condDelay := false }) := by
  rw [← ttSoftware_eq]
  constructor
  · rintro rfl
    exact traps_of_exec h
  · rintro rfl
    exact h

/-- Settles O24: each Ticc is the trap at its test. -/
theorem trapOnCondition : Obligations.TrapOnCondition := by
  intro s rs1 op tt
  exact List.forall_iff_forall_mem.mp ⟨trapOn_spec rfl, trapOn_spec rfl, trapOn_spec rfl, trapOn_spec rfl, trapOn_spec rfl,
    trapOn_spec rfl, trapOn_spec rfl, trapOn_spec rfl, trapOn_spec rfl, trapOn_spec rfl, trapOn_spec rfl, trapOn_spec rfl,
    trapOn_spec rfl, trapOn_spec rfl, trapOn_spec rfl, trapOn_spec rfl⟩

/-! ## SAVE and RESTORE (spec/45_v8_base_alu.md R379, R380; spec/43_awp_wrpsr.md R295) -/

/-- The window shift to window `n`. -/
theorem shiftWindow_spec {i : Instr} {s : State} {w : BitVec 5} {n : Nat} {tt : TrapType} {rd rs1 : RegNum} {op : Operand2}
    (h : exec i s = shiftWindow w tt rd rs1 op s) (hn : w.toNat = n) :
    (¬ (s.cfg.awp = true ∧ s.aw = true) ∧ s.wim.getLsbD n = false → ∃ t, exec i s = .next t
      ∧ t.regIn n rd = shown rd (BitVec.ofNat 32 ((s.reg rs1).toNat + (operand2 s op).toNat))
      ∧ OnlyRegisters s t n [rd]
      ∧ t = { s with globals := t.globals, windows := t.windows, cwp := BitVec.ofNat 5 n
                     pc := s.npc, npc := s.npc + 4#32, condDelay := false })
    ∧ (¬ (s.cfg.awp = true ∧ s.aw = true) ∧ s.wim.getLsbD n = true → Traps i s tt)
    ∧ (s.cfg.awp = true ∧ s.aw = true → exec i s = .refused .windowShiftInAlternate) := by
  subst hn
  rw [shiftWindow] at h
  refine ⟨?_, ?_, ?_⟩
  · rintro ⟨haw, hvalid⟩
    rw [if_neg (by simpa using haw), if_neg (by simp [State.windowInvalid, hvalid])] at h
    have hwin : ({ s with cwp := w } : State).window = w.toNat := State.window_of_not_alternate haw
    refine ⟨_, h, ?_, ?_, ?_⟩
    · rw [State.setReg, hwin, ← sum_eq_ofNat]
      exact (State.regIn_congr rfl rfl rfl _ _).trans (State.regIn_setRegIn_same ..)
    · rw [State.setReg, hwin]
      exact (State.setRegIn_only { s with cwp := w } w.toNat rd _).congr rfl rfl rfl rfl rfl
    · rw [State.setReg, State.setRegIn_eq, BitVec.ofNat_toNat, BitVec.setWidth_eq]
      rfl
  · rintro ⟨haw, hinv⟩
    rw [if_neg (by simpa using haw), State.windowInvalid, if_pos hinv] at h
    exact traps_of_exec h
  · rintro haw
    rw [if_pos (by simpa using haw)] at h
    exact h

/-- Settles O25: both shift the window by the same rule, SAVE to the previous window and RESTORE to the next. -/
theorem saveRestore : Obligations.SaveRestore := by
  intro s rd rs1 op hw hn
  exact List.forall_iff_forall_mem.mp ⟨shiftWindow_spec rfl (prevWindow_toNat hn hw),
    shiftWindow_spec rfl (nextWindow_toNat hn hw)⟩

/-! ## Absent units (R402, R403, R463 to R478, R492 to R494) -/

theorem privileged_of_user {s : State} (hs : s.sup = false) (k : Host.Outcome State Fault Refusal) :
    privileged s k = takeTrap s ttPrivilegedInstruction := if_neg (Bool.eq_false_iff.mp hs)

/-- A privileged instruction whose own effect is a trap. -/
theorem traps_of_privileged {i : Instr} {s : State} {tt : TrapType} (h : exec i s = privileged s (takeTrap s tt)) :
    Traps i s (if s.sup = true then tt else 0x03#8) := by
  cases hs : s.sup with
  | true => exact traps_of_exec (h.trans (privileged_of_sup hs _))
  | false => exact traps_of_exec (h.trans (privileged_of_user hs _))

/-- Settles O26. -/
theorem absentUnits : Obligations.AbsentUnits := by
  intro s a cond d rd rs1 rs2 opf op
  refine ⟨traps_of_exec rfl, List.forall_iff_forall_mem.mp ?_, List.forall_iff_forall_mem.mp ?_, traps_of_privileged rfl,
    traps_of_privileged rfl⟩
  · exact ⟨traps_of_exec rfl, traps_of_exec rfl, traps_of_exec rfl, traps_of_exec rfl, traps_of_exec rfl, traps_of_exec rfl,
      traps_of_exec rfl, traps_of_exec rfl, traps_of_exec rfl⟩
  · exact ⟨traps_of_exec rfl, traps_of_exec rfl, traps_of_exec rfl, traps_of_exec rfl, traps_of_exec rfl, traps_of_exec rfl,
      traps_of_exec rfl, traps_of_exec rfl, traps_of_exec rfl⟩

end Sys2Proof.Machine

namespace Sys2Proof.Machine

/-! ## The fields of PSR (spec/10_state.md R40) -/

/-- The four condition codes, bits 23 to 20. -/
theorem State.psr_flags {s : State} (h : s.cfg.coreWf = true) : s.psr.getLsbD 23 = s.n ∧ s.psr.getLsbD 22 = s.z
    ∧ s.psr.getLsbD 21 = s.v ∧ s.psr.getLsbD 20 = s.c := by
  obtain ⟨⟨_, haw⟩, ⟨_, hpaw⟩⟩ := Config.alternateBits_of_coreWf h
  have hne {k : Nat} (hk : 20 ≤ k) : k ≠ s.cfg.psrAwBit ∧ k ≠ s.cfg.psrPawBit := by omega
  refine ⟨?_, ?_, ?_, ?_⟩ <;> rw [s.psr_getLsbD (by decide)]
  · simp [hne (k := 23) (by decide), BitVec.getLsbD_of_ge]
  · simp [hne (k := 22) (by decide), BitVec.getLsbD_of_ge]
  · simp [hne (k := 21) (by decide), BitVec.getLsbD_of_ge]
  · simp [hne (k := 20) (by decide), BitVec.getLsbD_of_ge]

/-- S, PS and ET, bits 7 to 5. -/
theorem State.psr_modes {s : State} (h : s.cfg.coreWf = true) :
    s.psr.getLsbD 7 = s.sup ∧ s.psr.getLsbD 6 = s.ps ∧ s.psr.getLsbD 5 = s.et := by
  obtain ⟨⟨haw, _⟩, ⟨hpaw, _⟩⟩ := Config.alternateBits_of_coreWf h
  have hne {k : Nat} (hk : k < 14) : k ≠ s.cfg.psrAwBit ∧ k ≠ s.cfg.psrPawBit := by omega
  refine ⟨?_, ?_, ?_⟩ <;> rw [s.psr_getLsbD (by decide)]
  · simp [hne (k := 7) (by decide)]
  · simp [hne (k := 6) (by decide)]
  · simp [hne (k := 5) (by decide)]

/-- The field that V8 reserves, bits 19 to 14: AW and PAW, where the implementation has them. -/
theorem State.psr_alternate (s : State) {k : Nat} (h14 : 14 ≤ k) (h19 : k ≤ 19) : s.psr.getLsbD k
    = (s.cfg.awp && ((decide (k = s.cfg.psrAwBit) && s.aw) || (decide (k = s.cfg.psrPawBit) && s.paw))) := by
  have hflag {j : Nat} (hj : 20 ≤ j ∨ j ≤ 7) : k ≠ j := by omega
  rw [s.psr_getLsbD (by omega), BitVec.getLsbD_of_ge s.pil (k - 8) (by omega), BitVec.getLsbD_of_ge s.cwp k (by omega)]
  simp [hflag, show ¬ 28 ≤ k by omega, show ¬ 24 ≤ k by omega]

/-- PIL, bits 11 to 8. -/
theorem State.psr_pil {s : State} (h : s.cfg.coreWf = true) : s.psr.extractLsb' 8 4 = s.pil := by
  obtain ⟨⟨haw, _⟩, ⟨hpaw, _⟩⟩ := Config.alternateBits_of_coreWf h
  apply BitVec.eq_of_getLsbD_eq
  intro k hk
  have hflag {j : Nat} (hj : 12 ≤ j ∨ j ≤ 7) : 8 + k ≠ j := by omega
  have haw' : 8 + k ≠ s.cfg.psrAwBit ∧ 8 + k ≠ s.cfg.psrPawBit := by omega
  rw [BitVec.getLsbD_extractLsb', s.psr_getLsbD (by omega), BitVec.getLsbD_of_ge s.cwp (8 + k) (by omega)]
  simp [hk, hflag, haw', show ¬ 28 ≤ 8 + k by omega, show ¬ 24 ≤ 8 + k by omega]

/-- CWP, bits 4 to 0. -/
theorem State.psr_cwp {s : State} (h : s.cfg.coreWf = true) : s.psr.extractLsb' 0 5 = s.cwp := by
  obtain ⟨⟨haw, _⟩, ⟨hpaw, _⟩⟩ := Config.alternateBits_of_coreWf h
  apply BitVec.eq_of_getLsbD_eq
  intro k hk
  have hflag {j : Nat} (hj : 5 ≤ j) : k ≠ j := by omega
  have haw' : k ≠ s.cfg.psrAwBit ∧ k ≠ s.cfg.psrPawBit := by omega
  rw [BitVec.getLsbD_extractLsb', Nat.zero_add, s.psr_getLsbD (by omega)]
  simp [hk, hflag, haw', show ¬ 28 ≤ k by omega, show ¬ 24 ≤ k by omega, show ¬ 8 ≤ k by omega]

/-- impl and ver, the two halves of the top byte, as numbers. -/
theorem State.psr_implVer {s : State} (h : s.cfg.coreWf = true) :
    s.psr.toNat / 2 ^ 28 = s.cfg.psrImpl.toNat ∧ s.psr.toNat / 2 ^ 24 % 16 = s.cfg.psrVer.toNat := by
  have himpl := s.cfg.psrImpl.isLt
  have hver := s.cfg.psrVer.isLt
  have htop : s.psr.toNat / 2 ^ 24 = s.cfg.psrImpl.toNat * 16 + s.cfg.psrVer.toNat := by
    rw [topByte_toNat, State.psr_topByte h, BitVec.toNat_append, ← Nat.shiftLeft_add_eq_or_of_lt hver, Nat.shiftLeft_eq]
  omega

theorem wim_toNat_mod {s : State} (hn : s.cfg.nwindows ≤ 32) (x : Word) :
    x &&& lowMask s.cfg.nwindows = BitVec.ofNat 32 (x.toNat % 2 ^ s.cfg.nwindows) := by
  apply BitVec.eq_of_toNat_eq
  rw [and_lowMask_toNat hn, BitVec.toNat_ofNat, Nat.mod_eq_of_lt ((Nat.mod_le ..).trans_lt x.isLt)]

/-- TBR as a number: TBA, tt and four zeros. -/
theorem State.tbr_eq_ofNat (s : State) : s.tbr = BitVec.ofNat 32 (s.tba.toNat * 4096 + s.tt.toNat * 16) := by
  have htba := s.tba.isLt
  have htt := s.tt.isLt
  apply BitVec.eq_of_toNat_eq
  rw [State.tbr, toNat_append_eq, toNat_append_eq, BitVec.toNat_ofNat, BitVec.toNat_ofNat]
  omega

theorem Config.nwindows_of_coreWf {c : Config} (h : c.coreWf = true) : 2 ≤ c.nwindows ∧ c.nwindows ≤ 32 := by
  simp only [Config.coreWf, Bool.and_eq_true, decide_eq_true_eq] at h
  omega

/-- Settles O27: PSR's fields are read back bit by bit, and the other registers are their words. -/
theorem readStateRegisters : Obligations.ReadStateRegisters := by
  intro s rd h
  obtain ⟨-, hn⟩ := Config.nwindows_of_coreWf h
  refine ⟨completes_of_writeResult rfl, rfl, fun hs => ⟨⟨s.psr, ?_⟩, ?_, ?_⟩⟩
  · obtain ⟨himpl, hver⟩ := State.psr_implVer h
    obtain ⟨hN, hZ, hV, hC⟩ := State.psr_flags h
    obtain ⟨hef, hec⟩ := State.psr_coprocessorBits h
    obtain ⟨hS, hPS, hET⟩ := State.psr_modes h
    have hpil : s.psr.toNat / 2 ^ 8 % 16 = s.pil.toNat := by
      rw [← State.psr_pil h, BitVec.extractLsb'_toNat, Nat.shiftRight_eq_div_pow]
    have hcwp : s.psr.toNat % 32 = s.cwp.toNat := by rw [← cwpField_toNat, State.psr_cwp h]
    exact ⟨completes_of_writeResult (privileged_of_sup hs _), himpl, hver, hN, hZ, hV, hC,
      fun k h14 h19 => State.psr_alternate s h14 h19, hec, hef, hpil, hS, hPS, hET, hcwp⟩
  · rw [← wim_toNat_mod hn]
    exact completes_of_writeResult (privileged_of_sup hs _)
  · rw [← State.tbr_eq_ofNat]
    exact completes_of_writeResult (privileged_of_sup hs _)

/-! ## Ancillary state registers (spec/42_mac.md R55 to R58; spec/43_awp_wrpsr.md R293; spec/48_v8_base_system.md R481, R487) -/

/-- The numbers of the accumulator words, the flags and AWP name different registers, and none is 17, which SVT has. -/
theorem Config.asr_of_coreWf {c : Config} (h : c.coreWf = true) :
    (c.asrAccHi ≠ 17#5 ∧ c.asrAccLo ≠ 17#5 ∧ c.asrAccFlags ≠ 17#5 ∧ c.asrAwp ≠ 17#5)
    ∧ (c.asrAccHi ≠ c.asrAccLo ∧ c.asrAccHi ≠ c.asrAccFlags ∧ c.asrAccHi ≠ c.asrAwp)
    ∧ (c.asrAccLo ≠ c.asrAccFlags ∧ c.asrAccLo ≠ c.asrAwp) ∧ c.asrAccFlags ≠ c.asrAwp := by
  simp only [Config.coreWf, Bool.and_eq_true, decide_eq_true_eq, List.nodup_cons, List.mem_cons, List.not_mem_nil, or_false,
    not_or, forall_eq_or_imp, forall_eq] at h
  tauto

theorem Config.widths_of_coreWf {c : Config} (h : c.coreWf = true) : c.accHiWidth ≤ 32 ∧ c.awpLsb ≤ 27 := by
  simp only [Config.coreWf, Bool.and_eq_true, decide_eq_true_eq] at h
  tauto

theorem exec_rdasr_svt {s : State} (hv : s.cfg.svt = true) (rd : RegNum) :
    exec (.rdasr rd 17#5) s = privileged s (writeResult s rd (bit s.svt)) := if_pos (by simp [hv])

theorem exec_rdasr_accHi {s : State} (h : s.cfg.coreWf = true) (hm : s.cfg.mac = true) (rd : RegNum) :
    exec (.rdasr rd s.cfg.asrAccHi) s = writeResult s rd (s.accHi &&& lowMask s.cfg.accHiWidth) := by
  obtain ⟨⟨h17, -⟩, -⟩ := Config.asr_of_coreWf h
  exact (if_neg (by simp [h17])).trans (if_pos (by simp [hm]))

theorem exec_rdasr_accLo {s : State} (h : s.cfg.coreWf = true) (hm : s.cfg.mac = true) (rd : RegNum) :
    exec (.rdasr rd s.cfg.asrAccLo) s = writeResult s rd s.accLo := by
  obtain ⟨⟨-, h17, -⟩, ⟨hhi, -⟩, -⟩ := Config.asr_of_coreWf h
  exact (if_neg (by simp [h17])).trans ((if_neg (by simp [hhi.symm])).trans (if_pos (by simp [hm])))

theorem exec_rdasr_accFlags {s : State} (h : s.cfg.coreWf = true) (hm : s.cfg.mac = true) (rd : RegNum) :
    exec (.rdasr rd s.cfg.asrAccFlags) s
      = writeResult s rd (0#30 ++ BitVec.ofBool s.accOverflow ++ BitVec.ofBool s.accCarry) := by
  obtain ⟨⟨-, -, h17, -⟩, ⟨-, hhi, -⟩, ⟨hlo, -⟩, -⟩ := Config.asr_of_coreWf h
  exact (if_neg (by simp [h17])).trans ((if_neg (by simp [hhi.symm])).trans ((if_neg (by simp [hlo.symm])).trans
    (if_pos (by simp [hm]))))

theorem exec_rdasr_awp {s : State} (h : s.cfg.coreWf = true) (ha : s.cfg.awp = true) (rd : RegNum) :
    exec (.rdasr rd s.cfg.asrAwp) s = privileged s (writeResult s rd (s.awpReg.zeroExtend 32 <<< s.cfg.awpLsb)) := by
  obtain ⟨⟨-, -, -, h17⟩, ⟨-, -, hhi⟩, ⟨-, hlo⟩, hfl⟩ := Config.asr_of_coreWf h
  exact (if_neg (by simp [h17])).trans ((if_neg (by simp [hhi.symm])).trans ((if_neg (by simp [hlo.symm])).trans
    ((if_neg (by simp [hfl.symm])).trans (if_pos (by simp [ha])))))

/-- The register number names no ancillary register of the implementation. -/
def NoAsr (s : State) (r : RegNum) : Prop :=
  ¬ (s.cfg.svt = true ∧ r = 17#5) ∧ ¬ (s.cfg.mac = true ∧ r ∈ [s.cfg.asrAccHi, s.cfg.asrAccLo, s.cfg.asrAccFlags])
  ∧ ¬ (s.cfg.awp = true ∧ r = s.cfg.asrAwp)

/-- Every test of RDASR and WRASR fails on a number that names no register. -/
theorem NoAsr.tests {s : State} {r : RegNum} (h : NoAsr s r) : ¬ (s.cfg.svt && r == 17#5) = true
    ∧ ¬ (s.cfg.mac && r == s.cfg.asrAccHi) = true ∧ ¬ (s.cfg.mac && r == s.cfg.asrAccLo) = true
    ∧ ¬ (s.cfg.mac && r == s.cfg.asrAccFlags) = true ∧ ¬ (s.cfg.awp && r == s.cfg.asrAwp) = true := by
  obtain ⟨h17, hm, ha⟩ := h
  simp only [Bool.and_eq_true, beq_iff_eq]
  exact ⟨h17, fun ⟨e, hr⟩ => hm ⟨e, by simp [hr]⟩, fun ⟨e, hr⟩ => hm ⟨e, by simp [hr]⟩, fun ⟨e, hr⟩ => hm ⟨e, by simp [hr]⟩,
    ha⟩

theorem exec_rdasr_none {s : State} {rs1 : RegNum} (h : NoAsr s rs1) (rd : RegNum) :
    exec (.rdasr rd rs1) s = takeTrap s ttIllegalInstruction := by
  obtain ⟨h17, hhi, hlo, hfl, ha⟩ := h.tests
  exact (if_neg h17).trans ((if_neg hhi).trans ((if_neg hlo).trans ((if_neg hfl).trans (if_neg ha))))

theorem accFlags_eq_ofNat (ov ca : Bool) :
    (0#30 ++ BitVec.ofBool ov ++ BitVec.ofBool ca : Word) = BitVec.ofNat 32 (2 * ov.toNat + ca.toNat) := by
  cases ov <;> cases ca <;> rfl

theorem awp_shifted_eq_ofNat (f : BitVec 5) (k : Nat) : f.zeroExtend 32 <<< k = BitVec.ofNat 32 (f.toNat * 2 ^ k) := by
  have hf : (f.zeroExtend 32).toNat = f.toNat := BitVec.toNat_setWidth_of_le (by decide)
  rw [shiftLeft_eq_ofNat, hf]

theorem accHi_eq_ofNat {s : State} (h : s.cfg.coreWf = true) (x : Word) :
    x &&& lowMask s.cfg.accHiWidth = BitVec.ofNat 32 (x.toNat % 2 ^ s.cfg.accHiWidth) := by
  obtain ⟨hw, -⟩ := Config.widths_of_coreWf h
  apply BitVec.eq_of_toNat_eq
  rw [and_lowMask_toNat hw, BitVec.toNat_ofNat, Nat.mod_eq_of_lt ((Nat.mod_le ..).trans_lt x.isLt)]

/-- Settles O28. -/
theorem readAncillary : Obligations.ReadAncillary := by
  intro s rd rs1 h
  refine ⟨fun hm => ⟨?_, ?_, ?_⟩, ?_, ?_, ?_, ?_, ?_⟩
  · rw [← accHi_eq_ofNat h]
    exact completes_of_writeResult (exec_rdasr_accHi h hm rd)
  · exact completes_of_writeResult (exec_rdasr_accLo h hm rd)
  · rw [← accFlags_eq_ofNat]
    exact completes_of_writeResult (exec_rdasr_accFlags h hm rd)
  · rintro ⟨hv, hs⟩
    rw [← bit_eq_ofNat]
    exact completes_of_writeResult ((exec_rdasr_svt hv rd).trans (privileged_of_sup hs _))
  · rintro ⟨hv, hs⟩
    exact traps_of_exec ((exec_rdasr_svt hv rd).trans (privileged_of_user hs _))
  · rintro ⟨ha, hs⟩
    rw [← awp_shifted_eq_ofNat]
    exact completes_of_writeResult ((exec_rdasr_awp h ha rd).trans (privileged_of_sup hs _))
  · rintro ⟨ha, hs⟩
    exact traps_of_exec ((exec_rdasr_awp h ha rd).trans (privileged_of_user hs _))
  · intro hno
    exact traps_of_exec (exec_rdasr_none hno rd)

/-! ## Writes of state registers (spec/48_v8_base_system.md R486 to R490) -/

/-- Settles O29. -/
theorem writeStateRegisters : Obligations.WriteStateRegisters := by
  intro s rs1 op hn x
  refine ⟨rfl, fun hs => ⟨?_, ?_⟩⟩
  · rw [← wim_toNat_mod hn]
    exact privileged_of_sup hs _
  · have htba : BitVec.ofNat 20 (x.toNat / 4096) = x.extractLsb' 12 20 := by
      rw [BitVec.extractLsb', Nat.shiftRight_eq_div_pow]
    rw [htba]
    exact privileged_of_sup hs _

theorem exec_wrasr_svt {s : State} (hv : s.cfg.svt = true) (rs1 : RegNum) (op : Operand2) : exec (.wrasr 17#5 rs1 op) s
    = privileged s (.next { s with svt := (writeValue s rs1 op).getLsbD 0 }.advance) := if_pos (by simp [hv])

theorem exec_wrasr_accHi {s : State} (h : s.cfg.coreWf = true) (hm : s.cfg.mac = true) (rs1 : RegNum) (op : Operand2) :
    exec (.wrasr s.cfg.asrAccHi rs1 op) s
      = .next { s with accHi := writeValue s rs1 op &&& lowMask s.cfg.accHiWidth }.advance := by
  obtain ⟨⟨h17, -⟩, -⟩ := Config.asr_of_coreWf h
  exact (if_neg (by simp [h17])).trans (if_pos (by simp [hm]))

theorem exec_wrasr_accLo {s : State} (h : s.cfg.coreWf = true) (hm : s.cfg.mac = true) (rs1 : RegNum) (op : Operand2) :
    exec (.wrasr s.cfg.asrAccLo rs1 op) s = .next { s with accLo := writeValue s rs1 op }.advance := by
  obtain ⟨⟨-, h17, -⟩, ⟨hhi, -⟩, -⟩ := Config.asr_of_coreWf h
  exact (if_neg (by simp [h17])).trans ((if_neg (by simp [hhi.symm])).trans (if_pos (by simp [hm])))

theorem exec_wrasr_accFlags {s : State} (h : s.cfg.coreWf = true) (hm : s.cfg.mac = true) (rs1 : RegNum) (op : Operand2) :
    exec (.wrasr s.cfg.asrAccFlags rs1 op) s = .next { s with
      accOverflow := (writeValue s rs1 op).getLsbD 1, accCarry := (writeValue s rs1 op).getLsbD 0 }.advance := by
  obtain ⟨⟨-, -, h17, -⟩, ⟨-, hhi, -⟩, ⟨hlo, -⟩, -⟩ := Config.asr_of_coreWf h
  exact (if_neg (by simp [h17])).trans ((if_neg (by simp [hhi.symm])).trans ((if_neg (by simp [hlo.symm])).trans
    (if_pos (by simp [hm]))))

theorem exec_wrasr_awp {s : State} (h : s.cfg.coreWf = true) (ha : s.cfg.awp = true) (rs1 : RegNum) (op : Operand2) :
    exec (.wrasr s.cfg.asrAwp rs1 op) s = privileged s (writeAwp s (awpField s.cfg (writeValue s rs1 op))) := by
  obtain ⟨⟨-, -, -, h17⟩, ⟨-, -, hhi⟩, ⟨-, hlo⟩, hfl⟩ := Config.asr_of_coreWf h
  exact (if_neg (by simp [h17])).trans ((if_neg (by simp [hhi.symm])).trans ((if_neg (by simp [hlo.symm])).trans
    ((if_neg (by simp [hfl.symm])).trans (if_pos (by simp [ha])))))

theorem exec_wrasr_none {s : State} {rd : RegNum} (h : NoAsr s rd) (rs1 : RegNum) (op : Operand2) :
    exec (.wrasr rd rs1 op) s = takeTrap s ttIllegalInstruction := by
  obtain ⟨h17, hhi, hlo, hfl, ha⟩ := h.tests
  exact (if_neg h17).trans ((if_neg hhi).trans ((if_neg hlo).trans ((if_neg hfl).trans (if_neg ha))))

theorem awpField_toNat (c : Config) (x : Word) : (awpField c x).toNat = x.toNat / 2 ^ c.awpLsb % 32 := by
  rw [awpField, BitVec.extractLsb'_toNat, Nat.shiftRight_eq_div_pow]

theorem awpField_eq_ofNat (c : Config) (x : Word) : awpField c x = BitVec.ofNat 5 (x.toNat / 2 ^ c.awpLsb % 32) := by
  rw [← awpField_toNat, BitVec.ofNat_toNat, BitVec.setWidth_eq]

/-- Settles O30. -/
theorem writeAncillary : Obligations.WriteAncillary := by
  intro s rd rs1 op h x f
  refine ⟨fun hm => ⟨?_, exec_wrasr_accLo h hm rs1 op, exec_wrasr_accFlags h hm rs1 op⟩, ?_, ?_, ?_, ?_, ?_⟩
  · rw [← accHi_eq_ofNat h]
    exact exec_wrasr_accHi h hm rs1 op
  · rintro ⟨hv, hs⟩
    exact (exec_wrasr_svt hv rs1 op).trans (privileged_of_sup hs _)
  · rintro ⟨hv, hs⟩
    exact traps_of_exec ((exec_wrasr_svt hv rs1 op).trans (privileged_of_user hs _))
  · rintro ⟨ha, hs, hf⟩
    rw [show BitVec.ofNat 5 f = awpField s.cfg x from (awpField_eq_ofNat s.cfg x).symm]
    rw [exec_wrasr_awp h ha, privileged_of_sup hs]
    exact if_pos (by rw [awpField_toNat]; exact hf)
  · rintro ⟨ha, hs⟩
    exact traps_of_exec ((exec_wrasr_awp h ha rs1 op).trans (privileged_of_user hs _))
  · intro hno
    exact traps_of_exec (exec_wrasr_none hno rs1 op)

/-! ## User mode (spec/60_exceptions.md R531; spec/44_alternate_space.md R310) -/

/-- A privileged instruction in user mode. -/
theorem traps_privileged {i : Instr} {s : State} {k : Host.Outcome State Fault Refusal} (hs : s.sup = false)
    (h : exec i s = privileged s k) : Traps i s 0x03#8 := traps_of_exec (h.trans (privileged_of_user hs k))

/-- An alternate-space instruction without the privilege its address space asks for. -/
theorem traps_asi {i : Instr} {s : State} {asi : Asi} {k : Host.Outcome State Fault Refusal} (hs : s.sup = false)
    (ha : s.cfg.npasi = false ∨ asi.toNat < 0x80) (h : exec i s = whenAsiAllowed s asi k) : Traps i s 0x03#8 := by
  have hcond : (!s.sup && (!s.cfg.npasi || decide (asi < 0x80#8))) = true := by
    rw [hs, Bool.not_false, Bool.true_and, Bool.or_eq_true, Bool.not_eq_true', decide_eq_true_iff]
    exact ha
  exact traps_of_exec (h.trans (if_pos hcond))

/-- Settles O33: each privileged form begins with its privilege check. -/
theorem privilegedInUserMode : Obligations.PrivilegedInUserMode := by
  intro s rd rs1 rs2 asi op hs
  refine ⟨List.forall_iff_forall_mem.mp ?_, fun ha => List.forall_iff_forall_mem.mp ?_, fun hc => ?_, fun h => ⟨?_, ?_⟩⟩
  · exact ⟨traps_privileged hs rfl, traps_privileged hs rfl, traps_privileged hs rfl, traps_privileged hs rfl,
      traps_privileged hs rfl, traps_privileged hs rfl, traps_privileged hs rfl, traps_privileged hs rfl⟩
  · exact ⟨traps_asi hs ha rfl, traps_asi hs ha rfl, traps_asi hs ha rfl, traps_asi hs ha rfl, traps_asi hs ha rfl,
      traps_asi hs ha rfl, traps_asi hs ha rfl, traps_asi hs ha rfl, traps_asi hs ha rfl, traps_asi hs ha rfl,
      traps_asi hs ha rfl, traps_asi hs ha rfl⟩
  · refine traps_of_exec (tt := ttPrivilegedInstruction) ?_
    rw [exec_rett hc]
    cases het : s.et <;> simp [hs]
  · exact fun hv => ⟨traps_privileged hs (exec_rdasr_svt hv rd), traps_privileged hs (exec_wrasr_svt hv rs1 op)⟩
  · exact fun ha => ⟨traps_privileged hs (exec_rdasr_awp h ha rd), traps_privileged hs (exec_wrasr_awp h ha rs1 op)⟩

/-! ## Refused forms (spec/93_implementation_defined.md U7, U11, U26) -/

/-- Settles O23. -/
theorem refusedForms : Obligations.RefusedForms := by
  intro s a d disp30 rd rs1 op
  refine ⟨fun hc => List.forall_iff_forall_mem.mp ?_, fun hs hrd hsel => ?_, fun h ha hs hf => ?_⟩
  · have hcouple (k : Host.Outcome State Fault Refusal) := controlTransfer_of_condDelay hc k
    exact ⟨hcouple _, hcouple _, hcouple _, hcouple _, hcouple _, hcouple _, hcouple _, hcouple _, hcouple _, hcouple _,
      hcouple _, hcouple _, hcouple _, hcouple _, hcouple _, hcouple _, hcouple _, hcouple _, hcouple _⟩
  · rw [exec_wrpsr, execWrpsr, privileged_of_sup hs, if_neg hrd, if_neg (by simpa using hsel)]
  · rw [exec_wrasr_awp h ha, privileged_of_sup hs]
    exact if_neg (by rw [awpField_toNat]; exact Nat.not_lt.mpr hf)

end Sys2Proof.Machine

namespace Sys2Proof.Machine

/-! ## Globals and windows (spec/10_state.md R32, R33) -/

theorem State.regIn_global (s : State) (w : Nat) {r : RegNum} (h0 : r ≠ 0#5) (h8 : r.toNat < 8) :
    s.regIn w r = s.globals[r.toNat] := by
  rw [State.regIn, if_neg h0, dif_pos h8]

theorem State.regIn_windowed (s : State) (w : Nat) {r : RegNum} (h8 : 8 ≤ r.toNat) :
    s.regIn w r = s.windows[windowIndex s.cfg w r] := by
  have h0 : r ≠ 0#5 := by
    rintro rfl
    exact absurd h8 (by decide)
  rw [State.regIn, if_neg h0, dif_neg (Nat.not_lt.mpr h8)]

theorem State.regIn_of_index {s : State} {w : Nat} {r : RegNum} (h8 : 8 ≤ r.toNat) {k : Fin 512}
    (hk : windowIndex s.cfg w r = k) : s.regIn w r = s.windows[k] := by
  subst hk
  exact s.regIn_windowed w h8

/-- A global reads the same in every window. -/
theorem State.regIn_global_eq (s : State) (w w' : Nat) {r : RegNum} (h8 : r.toNat < 8) : s.regIn w r = s.regIn w' r := by
  by_cases h0 : r = 0#5
  · rw [h0, State.regIn_zero, State.regIn_zero]
  · rw [s.regIn_global w h0 h8, s.regIn_global w' h0 h8]

/-- A write to a windowed register is seen through another window and number only where they name the same place of W. -/
theorem State.regIn_setRegIn_of_index_ne (s : State) {w w' : Nat} {r q : RegNum} (x : Word) (hr : 8 ≤ r.toNat)
    (h : 8 ≤ q.toNat → windowIndex s.cfg w' q ≠ windowIndex s.cfg w r) :
    (s.setRegIn w r x).regIn w' q = s.regIn w' q := by
  obtain ⟨hglobals, hwindows⟩ := s.setRegIn_only w r x
  have hcfg : (s.setRegIn w r x).cfg = s.cfg := by rw [State.setRegIn_eq]
  by_cases h0 : q = 0#5
  · rw [h0, State.regIn_zero, State.regIn_zero]
  rcases Nat.lt_or_ge q.toNat 8 with hlt | hge
  · rw [State.regIn_global _ w' h0 hlt, s.regIn_global w' h0 hlt]
    refine hglobals ⟨q.toNat, hlt⟩ fun p hp _ => ?_
    obtain rfl := List.mem_singleton.mp hp
    exact Nat.ne_of_lt (Nat.lt_of_lt_of_le hlt hr)
  · rw [State.regIn_of_index hge (hcfg ▸ rfl : windowIndex (s.setRegIn w r x).cfg w' q = windowIndex s.cfg w' q),
      s.regIn_windowed w' hge]
    refine hwindows _ fun p hp _ => ?_
    obtain rfl := List.mem_singleton.mp hp
    exact h hge

/-- The place of a windowed register, where W has 16 * NWINDOWS entries of the 512. -/
theorem windowIndex_val {c : Config} (hn : c.nwindows ≤ 32) (h0 : 0 < c.nwindows) (w : Nat) (r : RegNum) :
    (windowIndex c w r).val = (16 * w + (r.toNat - 8)) % (16 * c.nwindows) := by
  have hlt := Nat.mod_lt (16 * w + (r.toNat - 8)) (Nat.mul_pos (by decide : 0 < 16) h0)
  exact Nat.mod_eq_of_lt (by omega)

/-- Outs and locals lie within the 16 entries of their window. -/
theorem windowIndex_low {c : Config} {w : Nat} {r : RegNum} (hn : c.nwindows ≤ 32) (hw : w < c.nwindows) (hr : r.toNat < 24) :
    (windowIndex c w r).val = 16 * w + (r.toNat - 8) := by
  rw [windowIndex_val hn (Nat.zero_lt_of_lt hw), Nat.mod_eq_of_lt (by omega)]

/-- Ins are the first 8 entries of the next window. -/
theorem windowIndex_ins {c : Config} {w : Nat} {r : RegNum} (hn : c.nwindows ≤ 32) (hw : w < c.nwindows) (hr : 24 ≤ r.toNat) :
    (windowIndex c w r).val = 16 * ((w + 1) % c.nwindows) + (r.toNat - 24) := by
  have hr32 := r.isLt
  rw [windowIndex_val hn (Nat.zero_lt_of_lt hw)]
  rcases Nat.lt_or_ge (w + 1) c.nwindows with hlt | hge
  · rw [Nat.mod_eq_of_lt hlt, Nat.mod_eq_of_lt (by omega)]
    omega
  · have hlast : w + 1 = c.nwindows := by omega
    rw [hlast, Nat.mod_self, show 16 * w + (r.toNat - 8) = (r.toNat - 24) + 16 * c.nwindows by omega, Nat.add_mod_right,
      Nat.mod_eq_of_lt (by omega)]
    omega

/-- Two windows have no place in common under one register number. -/
theorem windowIndex_ne_of_window_ne {c : Config} {w w' : Nat} {r : RegNum} (hn : c.nwindows ≤ 32) (hw : w < c.nwindows)
    (hw' : w' < c.nwindows) (hne : w ≠ w') : windowIndex c w' r ≠ windowIndex c w r := by
  intro he
  have hval := congrArg Fin.val he
  rcases Nat.lt_or_ge r.toNat 24 with hlt | hge
  · rw [windowIndex_low hn hw hlt, windowIndex_low hn hw' hlt] at hval
    omega
  · have hnext (v : Nat) (hv : v < c.nwindows) :
        (v + 1) % c.nwindows = if v + 1 = c.nwindows then 0 else v + 1 := by
      split
      case isTrue h => rw [h, Nat.mod_self]
      case isFalse h => exact Nat.mod_eq_of_lt (by omega)
    rw [windowIndex_ins hn hw hge, windowIndex_ins hn hw' hge, hnext w hw, hnext w' hw'] at hval
    split at hval <;> split at hval <;> omega

/-- A local of one window is no register of another. -/
theorem windowIndex_local_ne {c : Config} {w w' : Nat} {r q : RegNum} (hn : c.nwindows ≤ 32) (hw : w < c.nwindows)
    (hw' : w' < c.nwindows) (hne : w' ≠ w) (h16 : 16 ≤ r.toNat) (h23 : r.toNat ≤ 23) (hq : 8 ≤ q.toNat) :
    windowIndex c w' q ≠ windowIndex c w r := by
  intro he
  have hval := congrArg Fin.val he
  have hq32 := q.isLt
  rw [windowIndex_low hn hw (by omega)] at hval
  rcases Nat.lt_or_ge q.toNat 24 with hlt | hge
  · rw [windowIndex_low hn hw' hlt] at hval
    omega
  · rw [windowIndex_ins hn hw' hge] at hval
    omega

/-- Settles O6: a global's place is its number, whatever the window, and a windowed register's place differs between any two
windows. -/
theorem globalRegisters : Obligations.GlobalRegisters := by
  intro s w w' r x
  refine ⟨s.regIn_zero w, s.setRegIn_zero w x, s.regIn_global_eq w w', ?_, ?_⟩
  · rintro ⟨hpos, h8⟩
    have h0 : r ≠ 0#5 := by
      rintro rfl
      exact absurd hpos (by decide)
    rw [State.regIn_global_eq _ w' w h8, State.regIn_setRegIn_same, shown, if_neg h0]
  · rintro ⟨h8, -, hn, hw, hw', hne⟩
    exact s.regIn_setRegIn_of_index_ne x h8 fun _ => windowIndex_ne_of_window_ne hn hw hw' hne

/-- Settles O7: the one formula of R33 gives each of the three groups its place. -/
theorem windowLayout : Obligations.WindowLayout := by
  intro s w r h2 hn hw
  have hpos : 0 < s.cfg.nwindows := Nat.zero_lt_of_lt hw
  have hplace (k : Fin 512) (h8 : 8 ≤ r.toNat) (hk : k.val = (16 * w + (r.toNat - 8)) % (16 * s.cfg.nwindows)) :
      s.regIn w r = s.windows[k] := State.regIn_of_index h8 (Fin.ext ((windowIndex_val hn hpos w r).trans hk.symm))
  refine ⟨fun g hg => ?_, fun k h8 _ hk => hplace k h8 hk, fun k h16 _ hk => hplace k (by omega) ?_,
    fun k h24 hk => hplace k (by omega) ?_, fun h8 h15 => ?_, fun w' q x h16 h23 hw' hne => ?_⟩
  · split
    case isTrue h0 => rw [h0, State.regIn_zero]
    case isFalse h0 =>
      have h8 : r.toNat < 8 := hg ▸ g.isLt
      rw [s.regIn_global w h0 h8, show g = ⟨r.toNat, h8⟩ from Fin.ext hg.symm]
      rfl
  · rw [hk, show 16 * w + 8 + (r.toNat - 16) = 16 * w + (r.toNat - 8) by omega]
  · rw [hk, show 16 * (w + 1) + (r.toNat - 24) = 16 * w + (r.toNat - 8) by omega]
  · have hin : (r + 16#5).toNat = r.toNat + 16 := by
      rw [BitVec.toNat_add, BitVec.toNat_ofNat]
      omega
    have hindex : windowIndex s.cfg w (r + 16#5) = windowIndex s.cfg ((w + 1) % s.cfg.nwindows) r := by
      apply Fin.ext
      rw [windowIndex_ins hn hw (by omega), windowIndex_low hn (Nat.mod_lt _ hpos) (by omega)]
      omega
    rw [State.regIn_of_index (by omega) hindex, s.regIn_windowed _ h8]
  · exact s.regIn_setRegIn_of_index_ne x (by omega) fun hq => windowIndex_local_ne hn hw hw' hne h16 h23 hq

end Sys2Proof.Machine

namespace Sys2Proof.Machine

/-! ## Trap entry (spec/60_exceptions.md R505, R510) -/

/-- Settles O46: with ET = 1 the trap entry, with ET = 0 error mode. -/
theorem trapEntry : Obligations.TrapEntry := by
  intro s tt
  rcases s.raise_spec tt with ⟨het, -, htaken⟩ | ⟨het, herror⟩
  · exact ⟨fun _ => htaken, fun h => absurd (het.symm.trans h) (by decide)⟩
  · exact ⟨fun h => absurd (het.symm.trans h) (by decide), fun _ => herror⟩

/-! ## The step of the processor (R501; log 8) -/

theorem step_of_turn {s u : State} (h : ProcessorTurn s u) : step s = processorStep u := by
  rcases h with ⟨henv, rfl⟩ | ⟨rest, henv, rfl⟩ <;> rw [step, henv]

theorem processorStep_of_errorMode {s : State} (h : s.errorMode = true) : processorStep s = .next s := if_pos h

theorem processorStep_of_interrupt {s : State} (he : s.errorMode = false) (hi : s.inject ≠ some .store)
    (hint : s.interruptCondition = true) : processorStep s = .next (s.enterTrap (ttInterrupt s.irl)) := by
  rw [processorStep, if_neg (Bool.eq_false_iff.mp he), if_neg hi, if_pos hint]

theorem processorStep_of_instruction {s : State} (he : s.errorMode = false) (hi : s.inject ≠ some .store)
    (hint : s.interruptCondition = false) : processorStep s = runInstruction s := by
  rw [processorStep, if_neg (Bool.eq_false_iff.mp he), if_neg hi, if_neg (Bool.eq_false_iff.mp hint)]

theorem ttInterrupt_eq (n : BitVec 4) : ttInterrupt n = BitVec.ofNat 8 (0x10 + n.toNat) := by
  revert n
  decide

/-- What the turn takes from the schedule is no part of what the processor looks at. -/
theorem ProcessorTurn.same {s u : State} (h : ProcessorTurn s u) : u.errorMode = s.errorMode ∧ u.inject = s.inject
    ∧ u.interruptCondition = s.interruptCondition ∧ u.irl = s.irl := by
  rcases h with ⟨-, rfl⟩ | ⟨rest, -, rfl⟩
  · exact ⟨rfl, rfl, rfl, rfl⟩
  · exact ⟨rfl, rfl, rfl, rfl⟩

/-- Settles O47. -/
theorem interruptCondition : Obligations.InterruptCondition := by
  intro s
  constructor
  · simp only [State.interruptCondition, Bool.and_eq_true, Bool.or_eq_true, bne_iff_ne, beq_iff_eq, decide_eq_true_eq,
      BitVec.lt_def, and_assoc]
  · intro u hturn he hi hint
    obtain ⟨heu, hiu, hintu, hirl⟩ := hturn.same
    refine ⟨_, (step_of_turn hturn).trans (processorStep_of_interrupt (heu.trans he) (hiu ▸ hi) (hintu.trans hint)), ?_⟩
    rw [← ttInterrupt_eq, hirl]
    exact u.enterTrap_taken _

/-- Settles O48: the first test of a step is error mode, and the reset trap's status registers leave it. -/
theorem errorMode : Obligations.ErrorMode := by
  intro s he
  refine ⟨fun henv => ?_, fun rest henv => ?_, fun rest henv => ?_⟩
  · exact (step_of_turn (.inl ⟨henv, rfl⟩)).trans (processorStep_of_errorMode he)
  · exact (step_of_turn (.inr ⟨rest, henv, rfl⟩)).trans (processorStep_of_errorMode he)
  · refine ⟨_, by rw [step, henv]; rfl, ?_⟩
    simp [State.resetTrap, State.resetStatus]

/-! ## The fetched word (spec/20_memory.md R110, R164) -/

theorem bigEndian_one (s : State) (a : Nat) : bigEndian s a 1 = (s.byteAt a).toNat := by
  simp [bigEndian]

theorem halfAt_toNat (s : State) (a : Nat) : (s.halfAt a).toNat = bigEndian s a 2 := by
  rw [State.halfAt, toNat_append_eq]
  simp [bigEndian]

theorem wordAt_toNat (s : State) (a : Nat) : (s.wordAt a).toNat = bigEndian s a 4 := by
  rw [State.wordAt, wordOfBytes, toNat_append_eq, toNat_append_eq, toNat_append_eq]
  simp [bigEndian]

theorem wordAt_eq_ofNat (s : State) (a : Nat) : s.wordAt a = BitVec.ofNat 32 (bigEndian s a 4) := by
  rw [← wordAt_toNat, BitVec.ofNat_toNat, BitVec.setWidth_eq]

theorem wordBase_of_aligned {a : Nat} (h : a % 4 = 0) : wordBase a = a := by
  rw [wordBase, h, Nat.sub_zero]

/-- Without translation a fetch of a word that is not marked gives the word at pc. -/
theorem fetch_off {s : State} (hi : s.inject = none) (hoff : TranslationOff s) (hex : s.cfg.physExists s.pc.toNat = true)
    (hal : s.pc.toNat % 4 = 0) (hst : s.pc.toNat ∉ s.stale) : fetch s = .ok (s.wordAt s.pc.toNat) s := by
  have hmark :
      ¬ (s.stale.contains (wordBase s.pc.toNat) && !s.flushed.contains (wordBase s.pc.toNat, s.pc.toNat / 8)) = true := by
    rw [wordBase_of_aligned hal]
    simp [hst]
  rw [fetch, locate_off hoff, if_pos hex, Access.bind_ok, if_neg (by simp [hi]), if_neg hmark]

/-- Settles O49. -/
theorem stepRunsDecoded : Obligations.StepRunsDecoded := by
  intro s u i hturn he hint
  have hstep (w : Word) (t : State) (hi : u.inject ≠ some .store) (hf : fetch u = .ok w t) (hd : decode u.cfg w = .instr i) :
      step s = exec i t := by
    have hcfg : t.cfg = u.cfg := by rw [fetch_ok hf]
    rw [step_of_turn hturn, processorStep_of_instruction he hi hint, runInstruction, hf]
    show runDecoded t (decode t.cfg w) = exec i t
    rw [hcfg, hd]
    rfl
  refine ⟨hstep, fun hi hoff hex hal hst hd => ?_⟩
  rw [← wordAt_eq_ofNat] at hd
  exact hstep _ u (by simp [hi]) (fetch_off hi hoff hex hal hst) hd

/-! ## Reset (spec/70_reset_and_hazards.md R700; spec/10_state.md R65) -/

/-- Settles O51: every list has the length that the implementation gives it, and every register is 0 or the stated value. -/
theorem invariantAtReset : Obligations.InvariantAtReset := by
  have hreset (c : Config) (h : c.wf = true) : Inv (State.resetFor c) := by
    have hcore : c.coreWf = true := by
      simp only [Config.wf, Bool.and_eq_true] at h
      tauto
    obtain ⟨hn, -⟩ := Config.nwindows_of_coreWf hcore
    refine ⟨h, List.length_replicate, List.length_replicate, List.length_map .., List.length_replicate, List.length_map ..,
      List.length_map .., rfl, rfl, by simp [State.resetFor], Nat.zero_lt_of_lt hn, fun _ _ => BitVec.getLsbD_zero,
      fun _ _ => BitVec.getLsbD_zero,
      Nat.two_pow_pos _, fun he => Bool.noConfusion (he : false = true)⟩
  exact ⟨hreset Config.reference (by decide), hreset⟩

theorem Iirc.afterReset_registers (c : Config) (u : Iirc) (w : Nat → Word) : let v := u.afterReset c w
    v.mode0 = 0#16 ∧ v.mode1 = 0#16 ∧ v.irqLatch = 0#16 ∧ v.mask = 0#16 ∧ v.irlLatch = 0#4 := ⟨rfl, rfl, rfl, rfl, rfl⟩

theorem Timer.afterReset_registers (c : Config) (t : Timer) (w : Nat → Word) : let v := t.afterReset c w
    v.pv = 1#32 ∧ v.psel = 0#32 ∧ v.pext = false ∧ v.control = TimerControl.reset ∧ v.reload = 0#32 ∧ v.cnt = 0#32
    ∧ v.phase = .stopped := ⟨rfl, rfl, rfl, rfl, rfl, rfl, rfl⟩

theorem resetTrap_iircs (s : State) : ∀ u ∈ s.resetTrap.iircs,
    u.mode0 = 0#16 ∧ u.mode1 = 0#16 ∧ u.irqLatch = 0#16 ∧ u.mask = 0#16 ∧ u.irlLatch = 0#4 := by
  intro u hu
  simp only [State.resetTrap, State.resetStatus, State.resetPeripherals, State.setReg_iircs, List.mem_mapIdx] at hu
  obtain ⟨i, hi, rfl⟩ := hu
  exact Iirc.afterReset_registers ..

theorem resetTrap_timers (s : State) : ∀ u ∈ s.resetTrap.timers, u.pv = 1#32 ∧ u.psel = 0#32 ∧ u.pext = false
    ∧ u.control = TimerControl.reset ∧ u.reload = 0#32 ∧ u.cnt = 0#32 ∧ u.phase = .stopped := by
  intro u hu
  simp only [State.resetTrap, State.resetStatus, State.resetPeripherals, State.setReg_timers, List.mem_mapIdx] at hu
  obtain ⟨i, hi, rfl⟩ := hu
  exact Timer.afterReset_registers ..

/-- The state that the reset trap writes its two locals in. -/
def State.beforeResetLocals (s : State) : State := s.resetProcessor.resetMmu.resetPeripherals.resetStatus

theorem State.beforeResetLocals_window (s : State) : s.beforeResetLocals.window = s.prevWindow.toNat :=
  State.window_of_not_alternate fun ⟨_, haw⟩ => Bool.noConfusion (haw : false = true)

/-- The two locals of the previous window. -/
theorem resetTrap_locals (s : State) :
    s.resetTrap.regIn s.prevWindow.toNat 17#5 = s.pc ∧ s.resetTrap.regIn s.prevWindow.toNat 18#5 = s.npc := by
  have hset : (s.beforeResetLocals.setReg 17#5 s.pc).setReg 18#5 s.npc
      = (s.beforeResetLocals.setRegIn s.prevWindow.toNat 17#5 s.pc).setRegIn s.prevWindow.toNat 18#5 s.npc := by
    rw [State.setReg, State.setReg_window, State.setReg, s.beforeResetLocals_window]
  have hregs (r : RegNum) : s.resetTrap.regIn s.prevWindow.toNat r
      = ((s.beforeResetLocals.setRegIn s.prevWindow.toNat 17#5 s.pc).setRegIn s.prevWindow.toNat 18#5 s.npc).regIn
          s.prevWindow.toNat r := by
    rw [← hset]
    refine State.regIn_congr ?_ ?_ ?_ _ _ <;> rw [State.resetTrap, State.beforeResetLocals]
  rw [hregs, hregs, State.regIn_setRegIn_local, State.regIn_setRegIn_same, State.regIn_setRegIn_same]
  exact ⟨rfl, rfl⟩

/-- EF and EC read 0 also where AW and PAW share their place, as long as these are 0. -/
theorem State.psr_coprocessorBits_of_clear {s : State} (haw : s.aw = false) (hpaw : s.paw = false) :
    s.psr.getLsbD 12 = false ∧ s.psr.getLsbD 13 = false := by
  constructor
  · rw [s.psr_getLsbD (by decide)]
    simp [haw, hpaw]
  · rw [s.psr_getLsbD (by decide)]
    simp [haw, hpaw]

/-- What the reset trap sets among the processor's own registers. -/
theorem resetTrap_processor (s : State) : let t := s.resetTrap
    t.errorMode = false ∧ t.aw = false ∧ t.paw = false ∧ t.svt = false ∧ t.et = false ∧ t.ps = s.sup ∧ t.sup = true
    ∧ t.cwp = s.prevWindow ∧ t.mmuEnable = false ∧ t.pc = 0#32 ∧ t.npc = 4#32 ∧ t.tt = s.tt := by
  refine ⟨?_, ?_, ?_, ?_, ?_, ?_, ?_, ?_, ?_, rfl, rfl, ?_⟩ <;>
    simp only [State.resetTrap, State.setReg_errorMode, State.setReg_aw, State.setReg_paw, State.setReg_svt, State.setReg_et,
      State.setReg_ps, State.setReg_sup, State.setReg_cwp, State.setReg_mmuEnable, State.setReg_tt] <;> rfl

/-- Settles O52. -/
theorem resetTrap : Obligations.ResetTrap := by
  intro s rest henv
  let u : State := { s with env := rest }
  have hstep : step s = .next u.resetTrap := by
    rw [step, henv]
    rfl
  obtain ⟨herr, haw, hpaw, hsvt, het, hps, hsup, hcwp, hmmu, hpc, hnpc, htt⟩ := resetTrap_processor u
  obtain ⟨h17, h18⟩ := resetTrap_locals u
  obtain ⟨hef, hec⟩ := State.psr_coprocessorBits_of_clear haw hpaw
  exact ⟨u.resetTrap, hstep, herr, haw, hpaw, hsvt, het, hps, hsup, hcwp, hcwp ▸ h17, hcwp ▸ h18, hef, hec, hmmu, hpc, hnpc,
    htt, resetTrap_iircs u, resetTrap_timers u⟩

/-- Settles O53: the registers are those that `State.resetFor` gives, the controllers and timers each in their reset state. -/
theorem resetState : Obligations.ResetState := by
  refine ⟨rfl, rfl, rfl, rfl, rfl, rfl, rfl, rfl, rfl, by decide, by decide, by decide, by decide, fun u hu => ?_, fun u hu => ?_,
    rfl⟩
  · obtain ⟨_, -, rfl⟩ := List.mem_map.mp hu
    exact ⟨rfl, rfl, rfl, rfl, rfl⟩
  · obtain ⟨_, -, rfl⟩ := List.mem_map.mp hu
    exact ⟨rfl, rfl, rfl, rfl, rfl, rfl, rfl⟩

end Sys2Proof.Machine

namespace Sys2Proof.Machine

/-! ## Input handlers (spec/60_exceptions.md R562) -/

theorem Handler.condition_iff (h : Handler) (inp : Bool) : h.condition inp = true ↔ inp = true ∧ (h.width = 0#2
    ∨ (h.width = 1#2 ∧ h.shift.getLsbD 5 = true) ∨ (h.width = 2#2 ∧ h.shift.toNat / 8 = 7)
    ∨ (h.width = 3#2 ∧ h.shift.toNat = 63)) := by
  have hthree : (h.shift.extractLsb' 3 3 == 7#3) = true ↔ h.shift.toNat / 8 = 7 := by
    have hlt := h.shift.isLt
    rw [beq_iff_eq, ← BitVec.toNat_inj, BitVec.extractLsb'_toNat, Nat.shiftRight_eq_div_pow, BitVec.toNat_ofNat]
    omega
  have hsix : (h.shift == 63#6) = true ↔ h.shift.toNat = 63 := by rw [beq_iff_eq, ← BitVec.toNat_inj]; rfl
  have hwidth : ∀ w : BitVec 2, w = 0#2 ∨ w = 1#2 ∨ w = 2#2 ∨ w = 3#2 := by decide
  rw [Handler.condition, Bool.and_eq_true]
  refine and_congr_right fun _ => ?_
  rcases hwidth h.width with hw | hw | hw | hw <;> simp [hw, hthree, hsix]

theorem shift_in_toNat (b : Bool) (x : BitVec 6) :
    (BitVec.ofBool b ++ x.extractLsb' 1 5).toNat = (if b = true then 32 else 0) + x.toNat / 2 := by
  revert b x
  decide

/-- Settles O55. -/
theorem handlerTick : Obligations.HandlerTick := by
  intro h line inp t
  refine ⟨?_, shift_in_toNat inp h.shift, rfl⟩
  rw [← h.condition_iff inp, ← Bool.or_eq_true]
  rfl

/-! ## Interrupt controllers (spec/60_exceptions.md R588, R592) -/

/-- A sum of distinct powers of two has the bits of its members. -/
theorem sum_two_pow_spec (p : Nat → Prop) [DecidablePred p] (n : Nat) :
    ((List.range n).map fun x => if p x then 2 ^ x else 0).sum < 2 ^ n
    ∧ ∀ k, (((List.range n).map fun x => if p x then 2 ^ x else 0).sum).testBit k = decide (k < n ∧ p k) := by
  induction n with
  | zero => simp
  | succ n ih =>
    obtain ⟨hlt, hbit⟩ := ih
    rw [List.range_succ, List.map_append, List.sum_append, List.map_singleton, List.sum_singleton]
    generalize ((List.range n).map fun x => if p x then 2 ^ x else 0).sum = m at hlt hbit
    by_cases hp : p n
    · rw [if_pos hp, Nat.add_comm]
      refine ⟨by rw [pow_succ]; omega, fun k => ?_⟩
      rcases Nat.lt_trichotomy k n with hk | rfl | hk
      · rw [Nat.testBit_two_pow_add_gt hk, hbit]
        exact decide_eq_decide.mpr (by simp [hk, Nat.lt_succ_of_lt hk])
      · rw [Nat.testBit_two_pow_add_eq, Nat.testBit_lt_two_pow hlt]
        simp [hp]
      · rw [Nat.testBit_lt_two_pow]
        · exact (decide_eq_false (by omega)).symm
        · exact lt_of_lt_of_le (by rw [pow_succ]; omega) (Nat.pow_le_pow_right (by decide) (show n + 1 ≤ k from hk))
    · rw [if_neg hp, Nat.add_zero]
      refine ⟨by rw [pow_succ]; omega, fun k => ?_⟩
      rw [hbit]
      refine decide_eq_decide.mpr ⟨fun ⟨hk, h⟩ => ⟨Nat.lt_succ_of_lt hk, h⟩, fun ⟨hk, h⟩ => ⟨?_, h⟩⟩
      exact lt_of_le_of_ne (Nat.le_of_lt_succ hk) fun e => hp (e ▸ h)

theorem Iirc.hits_getLsbD (c : Config) (u : Iirc) (samples : List (BitVec 16)) {x : Nat} (h1 : 1 ≤ x) (h15 : x ≤ 15) :
    (u.hits c samples).getLsbD x = u.hit c samples x := by
  obtain ⟨-, hbit⟩ := sum_two_pow_spec (fun x => x ≠ 0 ∧ u.hit c samples x = true) 16
  rw [Iirc.hits, BitVec.getLsbD_ofNat, hbit, decide_eq_true (show x < 16 by omega), Bool.true_and]
  have hx : x ≠ 0 ∧ x < 16 := by omega
  simp [hx]

/-- A high level on a channel in high-level mode, with one level sample, is a request. -/
theorem Iirc.hit_high_level {c : Config} {u : Iirc} {now : BitVec 16} {x : Nat} (hm : u.mode x = 0#2) (hl : c.levelSamples = 1)
    (hx : now.getLsbD x = true) : u.hit c (now :: u.hist) x = true := by
  simp [Iirc.hit, hm, hl, hx]

theorem Iirc.sample_irqLatch (c : Config) (isMain : Bool) (u : Iirc) (now : BitVec 16) :
    (u.sample c isMain now).irqLatch = u.irqLatch ||| u.hits c (now :: u.hist) := by
  cases isMain <;> rfl

/-- Settles O57: a store to Request Clear is an AND with the complement, and the next sample sets the latch of a high
channel. -/
theorem requestClear : Obligations.RequestClear := by
  intro u isMain v t
  have ht : t = { u with irqLatch := u.irqLatch &&& ~~~(v.extractLsb' 0 16) } := by
    show u.store isMain 0x0C v = _
    simp [Iirc.store]
  refine ⟨fun x _ h15 => ?_, by rw [ht], fun c lines x h1 h15 hm hl hx => ?_⟩
  · rw [ht]
    have hx : x < 16 := by omega
    simp [hx]
  · rw [Iirc.sample_irqLatch, BitVec.getLsbD_or, Iirc.hits_getLsbD _ _ _ h1 h15, Iirc.hit_high_level hm hl hx, Bool.or_true]

/-! ## Simple counters (spec/61_timers_dsu.md R623) -/

/-- The ticks that an enabled counter makes from its count to its strobe. -/
def SimpleCounter.ticksLeft (c : Config) (k : SimpleCounter) : Nat :=
  match c.scForm with
  | .equalZero => k.count.toNat
  | .underflow => k.count.toNat + 1
  | .overflow => 2 ^ c.scBits - k.count.toNat

/-- The last tick: the count is the preload again, and the strobe is made. -/
theorem SimpleCounter.tick_last {c : Config} {k : SimpleCounter} (h8 : 8 ≤ c.scBits) (h32 : c.scBits ≤ 32)
    (hlt : k.count.toNat < 2 ^ c.scBits) (h : k.ticksLeft c = 1) :
    k.tick c true = { k with count := k.preload, strobe := true } := by
  have hpow : 2 ^ 8 ≤ 2 ^ c.scBits := Nat.pow_le_pow_right (by decide) h8
  have hpow' : 2 ^ c.scBits ≤ 2 ^ 32 := Nat.pow_le_pow_right (by decide) h32
  unfold SimpleCounter.ticksLeft at h
  rw [SimpleCounter.tick, if_pos rfl, SimpleCounter.count1]
  cases hf : c.scForm with
  | equalZero =>
    rw [hf] at h
    have hone : k.count = 1#32 := BitVec.eq_of_toNat_eq h
    simp [hone, BitVec.zero_and]
  | underflow =>
    rw [hf] at h
    have hzero : k.count = 0#32 := BitVec.eq_of_toNat_eq (Nat.succ.inj h)
    simp [hzero]
  | overflow =>
    rw [hf] at h
    have htop : k.count = lowMask c.scBits := by
      apply BitVec.eq_of_toNat_eq
      rw [lowMask, BitVec.toNat_ofNat]
      simp only at h
      omega
    simp [htop]

/-- A tick before the last: no strobe, and one tick less is left. -/
theorem SimpleCounter.tick_before {c : Config} {k : SimpleCounter} (h32 : c.scBits ≤ 32)
    (hlt : k.count.toNat < 2 ^ c.scBits) (h : 2 ≤ k.ticksLeft c) : let t := k.tick c true
    t.strobe = false ∧ t.preload = k.preload ∧ t.count.toNat < 2 ^ c.scBits ∧ t.ticksLeft c + 1 = k.ticksLeft c := by
  have hpow' : 2 ^ c.scBits ≤ 2 ^ 32 := Nat.pow_le_pow_right (by decide) h32
  have hmask (x : Word) (hx : x.toNat < 2 ^ c.scBits) : x &&& lowMask c.scBits = x := and_lowMask_of_lt h32 hx
  unfold SimpleCounter.ticksLeft at h ⊢
  rw [SimpleCounter.tick, if_pos rfl, SimpleCounter.count1]
  cases hf : c.scForm with
  | equalZero =>
    rw [hf] at h
    simp only at h
    have hsub : (k.count - 1#32).toNat = k.count.toNat - 1 := by bv_omega
    have hne : k.count - 1#32 ≠ 0#32 := by bv_omega
    simp only [hmask _ (by omega : (k.count - 1#32).toNat < _), if_neg hne, hsub, true_and]
    omega
  | underflow =>
    rw [hf] at h
    simp only at h
    have hsub : (k.count - 1#32).toNat = k.count.toNat - 1 := by bv_omega
    have hne : k.count ≠ 0#32 := by bv_omega
    simp only [if_neg hne, hsub, true_and]
    omega
  | overflow =>
    rw [hf] at h
    simp only at h
    have hadd : (k.count + 1#32).toNat = k.count.toNat + 1 := by
      rw [BitVec.toNat_add, BitVec.toNat_ofNat]
      omega
    have hne : k.count ≠ lowMask c.scBits := by
      intro e
      have htop := congrArg BitVec.toNat e
      rw [lowMask, BitVec.toNat_ofNat] at htop
      omega
    simp only [hmask _ (by omega : (k.count + 1#32).toNat < _), if_neg hne, hadd, true_and]
    omega

/-- Until its last tick a counter makes no strobe. -/
theorem SimpleCounter.iterate_before {c : Config} {k : SimpleCounter} (h32 : c.scBits ≤ 32)
    (hlt : k.count.toNat < 2 ^ c.scBits) : ∀ n, n < k.ticksLeft c →
      let t := (fun x : SimpleCounter => x.tick c true)^[n] k
      (1 ≤ n → t.strobe = false) ∧ t.preload = k.preload ∧ t.count.toNat < 2 ^ c.scBits
        ∧ t.ticksLeft c + n = k.ticksLeft c
  | 0, _ => ⟨fun h => absurd h (by decide), rfl, hlt, rfl⟩
  | n + 1, hn => by
    obtain ⟨-, hpre, hcount, hleft⟩ := SimpleCounter.iterate_before h32 hlt n (Nat.lt_of_succ_lt hn)
    rw [Function.iterate_succ_apply']
    obtain ⟨hs, hpre', hcount', hleft'⟩ := SimpleCounter.tick_before h32 hcount (by omega)
    exact ⟨fun _ => hs, hpre'.trans hpre, hcount', by omega⟩

/-- Settles O58: the ticks left count down to the strobe, from which the count is the preload again. -/
theorem counterPeriod : Obligations.CounterPeriod := by
  intro c k h8 h32 hcount hlt after period hperiod
  have hk : k = { k with count := k.preload } := congrArg (fun x => { k with count := x }) hcount
  have hleft : k.ticksLeft c = period := congrArg (SimpleCounter.ticksLeft c) hk
  have hbefore := SimpleCounter.iterate_before h32 (hcount ▸ hlt : k.count.toNat < 2 ^ c.scBits)
  refine ⟨fun n h1 hn => (hbefore n (hleft ▸ hn)).1 h1, ?_⟩
  obtain ⟨-, hpre, hlast, hone⟩ := hbefore (period - 1) (by omega)
  have hend : after period = ((fun x : SimpleCounter => x.tick c true)^[period - 1] k).tick c true := by
    show (fun x : SimpleCounter => x.tick c true)^[period] k = _
    conv_lhs => rw [show period = period - 1 + 1 by omega]
    rw [Function.iterate_succ_apply']
  rw [hend, SimpleCounter.tick_last h8 h32 hlast (by omega)]
  exact ⟨rfl, hpre⟩

/-! ## Programmable pulse generators (spec/61_timers_dsu.md R602 to R605) -/

/-- A count pulse that does not bring SCALER to zero only counts it down. -/
theorem Ppg.countPulse_before {c : Config} {free : Word × Word} {p : Ppg} (hs : p.sRun = true) (hbits : c.scalerBits ≤ 32)
    (hlt : p.scalerCnt.toNat < 2 ^ c.scalerBits) (h2 : 2 ≤ p.scalerCnt.toNat) :
    p.countPulse c free true = { p with scalerCnt := p.scalerCnt - 1#32 } := by
  have hne : p.scalerCnt ≠ 0#32 := by bv_omega
  have hne' : p.scalerCnt - 1#32 ≠ 0#32 := by bv_omega
  simp [Ppg.countPulse, hs, countDown_of_ne_zero hbits _ hlt hne, hne']

/-- The state in which COUNTER sees the end of a SCALER period: OUT has taken bit 4 one period after COUNTER's zero. -/
def Ppg.afterBit4 (p : Ppg) : Ppg :=
  { p with out := if p.afterZero = true then p.shaper.getLsbD 4 else p.out, afterZero := false }

/-- The count pulse that brings SCALER to zero. -/
theorem Ppg.countPulse_last {c : Config} {free : Word × Word} {p : Ppg} (hs : p.sRun = true) (hbits : c.scalerBits ≤ 32)
    (hpos : 0 < c.scalerBits) (hone : p.scalerCnt = 1#32) : p.countPulse c free true =
      let r := if p.cRun then p.afterBit4.counterPulse c free.2 else p.afterBit4
      if p.cRun && r.afterZero && !p.shaper.getLsbD 0 then { r with scalerCnt := 0#32, sRun := false }
      else { r with scalerCnt := p.scalerSet } := by
  have hlt : p.scalerCnt.toNat < 2 ^ c.scalerBits := by
    rw [hone]
    exact Nat.one_lt_two_pow (Nat.pos_iff_ne_zero.mp hpos)
  have hdown : countDown c.scalerBits free.1 p.scalerCnt = 0#32 := by
    rw [countDown_of_ne_zero hbits _ hlt (by rw [hone]; decide), hone]
    decide
  have hq : (if p.afterZero then { p with out := p.shaper.getLsbD 4, afterZero := false } else p) = p.afterBit4 := by
    cases hz : p.afterZero with
    | true => simp [Ppg.afterBit4, hz]
    | false =>
      rw [Ppg.afterBit4, hz]
      exact congrArg (fun z => { p with afterZero := z }) hz
  rw [Ppg.countPulse, if_pos (by simp [hs])]
  simp only [hdown, hq, if_true]
  rfl

/-- The end of a SCALER period while COUNTER does not run. -/
theorem Ppg.countPulse_last_idle {c : Config} {free : Word × Word} {p : Ppg} (hs : p.sRun = true) (hbits : c.scalerBits ≤ 32)
    (hpos : 0 < c.scalerBits) (hone : p.scalerCnt = 1#32) (hc : p.cRun = false) :
    p.countPulse c free true = { p.afterBit4 with scalerCnt := p.scalerSet } := by
  rw [Ppg.countPulse_last hs hbits hpos hone]
  simp only [hc, Bool.false_and, Bool.false_eq_true, if_false]

/-- The end of a SCALER period while COUNTER runs. -/
theorem Ppg.countPulse_last_running {c : Config} {free : Word × Word} {p : Ppg} (hs : p.sRun = true)
    (hbits : c.scalerBits ≤ 32) (hpos : 0 < c.scalerBits) (hone : p.scalerCnt = 1#32) (hc : p.cRun = true) :
    p.countPulse c free true =
      let r := p.afterBit4.counterPulse c free.2
      if r.afterZero && !p.shaper.getLsbD 0 then { r with scalerCnt := 0#32, sRun := false }
      else { r with scalerCnt := p.scalerSet } := by
  rw [Ppg.countPulse_last hs hbits hpos hone]
  simp only [hc, Bool.true_and, if_true]

/-- COUNTER's count pulse before its zero. -/
theorem Ppg.counterPulse_before {c : Config} {free : Word} {p : Ppg} (hbits : c.counterBits ≤ 32)
    (hlt : p.counterCnt.toNat < 2 ^ c.counterBits) (h2 : 2 ≤ p.counterCnt.toNat) :
    p.counterPulse c free = { p with counterCnt := p.counterCnt - 1#32 } := by
  have hne : p.counterCnt ≠ 0#32 := by bv_omega
  have hne' : p.counterCnt - 1#32 ≠ 0#32 := by bv_omega
  simp [Ppg.counterPulse, countDown_of_ne_zero hbits _ hlt hne, hne']

/-- COUNTER's count pulse at its zero. -/
theorem Ppg.counterPulse_zero {c : Config} {free : Word} {p : Ppg} (hbits : c.counterBits ≤ 32)
    (hlt : p.counterCnt.toNat < 2 ^ c.counterBits) (h1 : p.counterCnt.toNat = 1) : p.counterPulse c free = { p with
      out := p.shaper.getLsbD 5, afterZero := true
      counterCnt := if p.shaper.getLsbD 1 then p.counterSet else 0#32
      cRun := p.shaper.getLsbD 1 } := by
  have hne : p.counterCnt ≠ 0#32 := by bv_omega
  have hzero : p.counterCnt - 1#32 = 0#32 := by bv_omega
  simp [Ppg.counterPulse, countDown_of_ne_zero hbits _ hlt hne, hzero]

/-- The count pulses of a SCALER period but its last. -/
theorem Ppg.iterate_before {c : Config} {free : Word × Word} {p : Ppg} (hs : p.sRun = true) (hbits : c.scalerBits ≤ 32)
    (hcnt : p.scalerCnt = p.scalerSet) (hlt : p.scalerSet.toNat < 2 ^ c.scalerBits) : ∀ n, n < p.scalerSet.toNat →
      (fun x : Ppg => x.countPulse c free true)^[n] p = { p with scalerCnt := p.scalerSet - BitVec.ofNat 32 n }
  | 0, _ => congrArg (fun x => { p with scalerCnt := x }) (hcnt.trans (BitVec.sub_zero _).symm)
  | n + 1, hn => by
    have hset := p.scalerSet.isLt
    have hn' : (p.scalerSet - BitVec.ofNat 32 n).toNat = p.scalerSet.toNat - n := by
      rw [BitVec.toNat_sub, BitVec.toNat_ofNat]
      omega
    have hsub : p.scalerSet - BitVec.ofNat 32 n - 1#32 = p.scalerSet - BitVec.ofNat 32 (n + 1) := by
      rw [BitVec.sub_sub, ← BitVec.ofNat_add]
    rw [Function.iterate_succ_apply', Ppg.iterate_before hs hbits hcnt hlt n (Nat.lt_of_succ_lt hn)]
    rw [Ppg.countPulse_before (p := { p with scalerCnt := p.scalerSet - BitVec.ofNat 32 n }) hs hbits (by rw [hn']; omega)
      (by rw [hn']; omega), hsub]

/-- Settles O59: SCALER counts down to 1, and the pulse after that is the end of its period. -/
theorem pulsePeriod : Obligations.PulsePeriod := by
  intro c free p
  refine ⟨Ppg.countPulse_idle c free p false rfl, ?_⟩
  intro h8 h32 h8' h32' hs hcnt hne hlt hclt after t
  have hbefore := Ppg.iterate_before (c := c) (free := free) hs h32 hcnt hlt
  have hset := p.scalerSet.isLt
  have hpos : 0 < p.scalerSet.toNat := Nat.pos_of_ne_zero fun h => hne (BitVec.eq_of_toNat_eq h)
  have hone : p.scalerSet - BitVec.ofNat 32 (p.scalerSet.toNat - 1) = 1#32 := by
    apply BitVec.eq_of_toNat_eq
    rw [BitVec.toNat_sub, BitVec.toNat_ofNat, BitVec.toNat_ofNat]
    omega
  obtain ⟨q, hq⟩ : ∃ q : Ppg, q = { p with scalerCnt := 1#32 } := ⟨_, rfl⟩
  have hlast : t = q.countPulse c free true := by
    show (fun x : Ppg => x.countPulse c free true)^[p.scalerSet.toNat] p = _
    rw [hq, ← hone, ← hbefore (p.scalerSet.toNat - 1) (by omega)]
    conv_lhs => rw [show p.scalerSet.toNat = p.scalerSet.toNat - 1 + 1 by omega]
    rw [Function.iterate_succ_apply']
  have hs' : q.sRun = true := hq ▸ hs
  have hone' : q.scalerCnt = 1#32 := hq ▸ rfl
  refine ⟨hbefore, fun hc => ?_, fun hc h2 => ?_, fun hc h1 => ?_⟩
  · rw [hlast, Ppg.countPulse_last_idle hs' h32 (by omega) hone' (hq ▸ hc), hq, ← hcnt]
    rfl
  · rw [hlast, Ppg.countPulse_last_running hs' h32 (by omega) hone' (hq ▸ hc),
      Ppg.counterPulse_before (p := q.afterBit4) h32' (hq ▸ hclt) (hq ▸ h2), hq, ← hcnt]
    rfl
  · rw [hlast, Ppg.countPulse_last_running hs' h32 (by omega) hone' (hq ▸ hc),
      Ppg.counterPulse_zero (p := q.afterBit4) h32' (hq ▸ hclt) (hq ▸ h1), hq]
    cases p.shaper.getLsbD 0 <;> simp [Ppg.afterBit4, hs]

end Sys2Proof.Machine

namespace Sys2Proof.Machine

/-! ## Simple timers in modes 0 and 3 (spec/61_timers_dsu.md R640, R643, R644, R652) -/

/-- The control word of R652: a mode, CE, the gate of event 1, the timer clock. -/
def traceControl (mode : BitVec 3) : TimerControl := { TimerControl.reset with mode := mode, ce := true, event := 1#3 }

/-- A timer that counts from the reload value `reload`: its count is `cnt`, its output flip-flop `o`. -/
def Timer.running (t : Timer) (reload cnt : Word) (o : Bool) : Timer :=
  { t with reload := reload, cnt := cnt, phase := .counting, o := o, src := .latched }

theorem lowMask_small {n : Nat} (h8 : 8 ≤ n) (h32 : n ≤ 32) {x : Word} (hx : x.toNat < 2 ^ 8) : x &&& lowMask n = x :=
  and_lowMask_of_lt h32 (lt_of_lt_of_le hx (Nat.pow_le_pow_right (by decide) h8))

/-- A reload store in modes 0 and 3 starts the count (R643). -/
theorem Timer.store_reload {c : Config} {u : TimerConfig} {t : Timer} {mode : BitVec 3} (h8 : 8 ≤ c.stBits)
    (h32 : c.stBits ≤ 32) (hm : mode = 0#3 ∨ mode = 3#3) (hc : t.control = traceControl mode) {x : Word}
    (hx : x.toNat < 2 ^ 8) (h0 : x ≠ 0#32) : t.store c u 8 x = .ok (t.running x x false) := by
  have hmode : mode < 4#3 ∧ mode ≠ 2#3 := by rcases hm with rfl | rfl <;> decide
  simp [Timer.store, Timer.storeReload, Timer.startCount, Timer.loadWithCounter, Timer.running, hc, traceControl,
    TimerControl.reset, lowMask_small h8 h32 hx, h0, hmode]

theorem Timer.running_gate {t : Timer} {mode : BitVec 3} (hc : t.control = traceControl mode) (l n : Word) (o : Bool) :
    (t.running l n o).gateActive false = false := by
  simp [Timer.gateActive, Timer.running, hc, traceControl]

/-- A tick above 1 counts down (R640). -/
theorem Timer.tick_down {u : TimerConfig} {t : Timer} {mode : BitVec 3} (hm : mode = 0#3 ∨ mode = 3#3)
    (hc : t.control = traceControl mode) {l n : Word} {o : Bool} (h0 : n ≠ 0#32) (h1 : n ≠ 1#32) :
    (t.running l n o).tick u false = t.running l (n - 1#32) o := by
  have hmode : mode ≠ 2#3 := by rcases hm with rfl | rfl <;> decide
  rw [Timer.tick, if_pos ⟨rfl, Timer.running_gate hc l n o⟩]
  simp [Timer.halfPoint, Timer.running, h0, h1, hc, traceControl, hmode]

/-- Mode 0: the tick at 1 is the timeout, which sets the output (R644). -/
theorem Timer.tick_timeout_mode0 {u : TimerConfig} {t : Timer} (hc : t.control = traceControl 0#3) (l : Word) (o : Bool) :
    (t.running l 1#32 o).tick u false = t.running l 0#32 true := by
  rw [Timer.tick, if_pos ⟨rfl, Timer.running_gate hc l _ o⟩]
  simp [Timer.halfPoint, Timer.timeout, Timer.running, hc, traceControl]

/-- Mode 0: the tick at 0 reloads (R640). -/
theorem Timer.tick_reload_mode0 {u : TimerConfig} {t : Timer} (hc : t.control = traceControl 0#3) (l : Word) (o : Bool) :
    (t.running l 0#32 o).tick u false = t.running l l o := by
  rw [Timer.tick, if_pos ⟨rfl, Timer.running_gate hc l _ o⟩]
  simp [Timer.halfPoint, Timer.loadWithCounter, Timer.running, hc, traceControl, TimerControl.reset]

/-- Mode 3: the tick at 1 is the timeout, which halts the timer. -/
theorem Timer.tick_timeout_mode3 {u : TimerConfig} {t : Timer} (hc : t.control = traceControl 3#3) (l : Word) (o : Bool) :
    (t.running l 1#32 o).tick u false = { t.running l 0#32 true with phase := .halted } := by
  rw [Timer.tick, if_pos ⟨rfl, Timer.running_gate hc l _ o⟩]
  simp [Timer.halfPoint, Timer.timeout, Timer.running, hc, traceControl]

theorem Timer.tick_halted {u : TimerConfig} {t : Timer} (h : t.phase = .halted) : t.tick u false = t := by
  simp [Timer.tick, h]

theorem Timer.running_cnt (t : Timer) (l n : Word) (o : Bool) : (t.running l n o).cnt = n := rfl

theorem Timer.running_out {t : Timer} {mode : BitVec 3} (hc : t.control = traceControl mode) (l n : Word) (o : Bool) :
    (t.running l n o).out = o := by
  simp [Timer.out, Timer.running, hc, traceControl, TimerControl.reset]

/-- A load of the count in mode 0 returns it and clears the output (R635). -/
theorem Timer.load_count_mode0 {c : Config} {u : TimerConfig} {t : Timer} (hc : t.control = traceControl 0#3) (l n : Word)
    (o : Bool) : (t.running l n o).load c u 12 false = .ok (n, t.running l n false) := by
  simp [Timer.load, Timer.readCount, Timer.running, hc, traceControl]

/-- Settles O60: the two traces, tick by tick. -/
theorem timerTrace : Obligations.TimerTrace := by
  intro c u t h8 h32 _ _ tick
  refine ⟨fun hc => ?_, fun hc => ?_⟩
  · have h3 : tick (t.running 3#32 3#32 false) = t.running 3#32 2#32 false :=
      Timer.tick_down (.inl rfl) hc (by decide) (by decide)
    have h2 : tick (t.running 3#32 2#32 false) = t.running 3#32 1#32 false :=
      Timer.tick_down (.inl rfl) hc (by decide) (by decide)
    have h1 : tick (t.running 3#32 1#32 false) = t.running 3#32 0#32 true := Timer.tick_timeout_mode0 hc ..
    have h0 (o : Bool) : tick (t.running 3#32 0#32 o) = t.running 3#32 3#32 o := Timer.tick_reload_mode0 hc ..
    have h3' : tick (t.running 3#32 3#32 true) = t.running 3#32 2#32 true :=
      Timer.tick_down (.inl rfl) hc (by decide) (by decide)
    refine ⟨_, Timer.store_reload h8 h32 (.inl rfl) hc (by decide) (by decide), ?_⟩
    simp only [Function.iterate_succ_apply, Function.iterate_zero, id_eq, h3, h2, h1, h0, h3', Timer.running_out hc,
      Timer.running_cnt, true_and]
    refine ⟨_, Timer.load_count_mode0 hc .., ?_⟩
    simp only [h2, h1, h0, Timer.running_out hc, Timer.running_cnt, true_and]
  · have h2 : tick (t.running 2#32 2#32 false) = t.running 2#32 1#32 false :=
      Timer.tick_down (.inr rfl) hc (by decide) (by decide)
    have hstore (s : Timer) (hs : s.control = traceControl 3#3) : s.store c u 8 2#32 = .ok (s.running 2#32 2#32 false) :=
      Timer.store_reload h8 h32 (.inr rfl) hs (by decide) (by decide)
    have h1 : tick (t.running 2#32 1#32 false) = { t.running 2#32 0#32 true with phase := .halted } :=
      Timer.tick_timeout_mode3 hc ..
    refine ⟨_, hstore t hc, rfl, by rw [h2]; rfl, t.running 2#32 2#32 false, by rw [h2]; exact hstore _ hc, rfl, ?_⟩
    have hhalted : tick { t.running 2#32 0#32 true with phase := .halted } = { t.running 2#32 0#32 true with phase := .halted } :=
      Timer.tick_halted rfl
    simp only [Function.iterate_succ_apply, Function.iterate_zero, id_eq, h2, h1]
    exact ⟨rfl, rfl, Timer.running_out hc 2#32 0#32 true, trivial, fun n => Function.iterate_fixed hhalted n⟩

/-! ## Access permissions (spec/20_memory.md R141) -/

/-- Settles O43. -/
theorem accessPermissions : Obligations.AccessPermissions :=
  ⟨List.forall_iff_forall_mem.mp ⟨⟨rfl, rfl⟩, ⟨rfl, rfl⟩, ⟨rfl, rfl⟩, ⟨rfl, rfl⟩, ⟨rfl, rfl⟩, ⟨rfl, rfl⟩,
    ⟨rfl, rfl⟩, rfl, rfl⟩,
    fun _ _ => rfl, rfl⟩

end Sys2Proof.Machine

namespace Sys2Proof.Machine

/-! ## The guards of the loads and stores (spec/47_v8_base_memory.md R450, R456; spec/44_alternate_space.md R310, R311) -/

section
variable {s : State} {ea : Word} {n : Nat} {rd : RegNum} {asi : Asi} {k : Host.Outcome State Fault Refusal}

theorem whenAligned_of_aligned (h : ea.toNat % n = 0) : whenAligned s ea n k = k := if_pos h

theorem whenAligned_of_misaligned (h : ea.toNat % n ≠ 0) : whenAligned s ea n k = takeTrap s ttMemAddressNotAligned := if_neg h

theorem whenEven_of_even (h : rd.toNat % 2 = 0) : whenEven s rd k = k :=
  if_neg fun hodd => by have := (getLsbD_zero_eq_true_iff rd).mp hodd; omega

theorem whenEven_of_odd (h : rd.toNat % 2 = 1) : whenEven s rd k = takeTrap s ttIllegalInstruction :=
  if_pos ((getLsbD_zero_eq_true_iff rd).mpr h)

theorem whenAsiAllowed_of_allowed (h : AsiAllowed s asi) : whenAsiAllowed s asi k = k := by
  refine if_neg fun hno => ?_
  simp only [Bool.and_eq_true, Bool.or_eq_true, Bool.not_eq_true', decide_eq_true_eq] at hno
  obtain ⟨hs, hp⟩ := hno
  rcases h with hsup | ⟨hnp, hge⟩
  · exact absurd (hs.symm.trans hsup) (by decide)
  · rcases hp with hnp' | hlt
    · exact absurd (hnp'.symm.trans hnp) (by decide)
    · exact absurd hlt (by rw [BitVec.lt_def]; simpa using hge)

theorem traps_misaligned {i : Instr} (h : ea.toNat % n ≠ 0) (hexec : exec i s = whenAligned s ea n k) : Traps i s 0x07#8 :=
  traps_of_exec (hexec.trans (whenAligned_of_misaligned h))

theorem traps_misaligned_pair {i : Instr} (he : rd.toNat % 2 = 0) (h : ea.toNat % n ≠ 0)
    (hexec : exec i s = whenEven s rd (whenAligned s ea n k)) : Traps i s 0x07#8 :=
  traps_misaligned h (hexec.trans (whenEven_of_even he))

theorem traps_odd {i : Instr} (h : rd.toNat % 2 = 1) (hexec : exec i s = whenEven s rd k) : Traps i s 0x02#8 :=
  traps_of_exec (hexec.trans (whenEven_of_odd h))

end

/-- Settles O38: the check of the register pair comes first, then that of the alignment, before the address is resolved. -/
theorem misalignedTraps : Obligations.MisalignedTraps := by
  intro s rd rs1 op asi rs2 ea eb
  refine ⟨fun h => List.forall_iff_forall_mem.mp ?_, fun h => List.forall_iff_forall_mem.mp ?_,
    fun h he => List.forall_iff_forall_mem.mp ?_, fun ho => List.forall_iff_forall_mem.mp ?_, fun ha => ?_⟩
  · exact ⟨traps_misaligned h rfl, traps_misaligned h rfl, traps_misaligned h rfl⟩
  · exact ⟨traps_misaligned h rfl, traps_misaligned h rfl, traps_misaligned h rfl⟩
  · exact ⟨traps_misaligned_pair he h rfl, traps_misaligned_pair he h rfl⟩
  · exact ⟨traps_odd ho rfl, traps_odd ho rfl⟩
  have asi_ok (k : Host.Outcome State Fault Refusal) : whenAsiAllowed s asi k = k := whenAsiAllowed_of_allowed ha
  refine ⟨fun h => List.forall_iff_forall_mem.mp ?_, fun h => List.forall_iff_forall_mem.mp ?_,
    fun h he => List.forall_iff_forall_mem.mp ?_, fun ho => List.forall_iff_forall_mem.mp ?_⟩
  · exact ⟨traps_misaligned h (asi_ok _), traps_misaligned h (asi_ok _), traps_misaligned h (asi_ok _)⟩
  · exact ⟨traps_misaligned h (asi_ok _), traps_misaligned h (asi_ok _), traps_misaligned h (asi_ok _)⟩
  · exact ⟨traps_misaligned_pair he h (asi_ok _), traps_misaligned_pair he h (asi_ok _)⟩
  · exact ⟨traps_odd ho (asi_ok _), traps_odd ho (asi_ok _)⟩

/-! ## Where an access goes without translation (spec/20_memory.md R101, R155) -/

theorem memoryPlace_of_no_inject {s : State} (h : s.inject ≠ some .data) (pa : Nat) : memoryPlace s pa = .ok (.memory pa) s :=
  if_neg h

theorem memoryPlace_of_inject {s : State} (h : s.inject = some .data) (pa : Nat) :
    memoryPlace s pa = .trap ttDataAccessError { s with inject := none } := if_pos h

/-- An access in a memory address space is the translation, then the bus. -/
theorem resolve_memory {asi : Asi} (h : isMemoryAsi asi = true) (s : State) (ea : Word) (kind : AccessKind) :
    resolve s asi ea kind = (locate s ea asi kind).bind fun pa t => memoryPlace t pa := if_pos h

theorem resolve_off {s : State} (hoff : TranslationOff s) {asi : Asi} (ha : isMemoryAsi asi = true) {ea : Word}
    (hex : s.cfg.physExists ea.toNat = true) (kind : AccessKind) : resolve s asi ea kind = memoryPlace s ea.toNat := by
  rw [resolve_memory ha, locate_off hoff, if_pos hex, Access.bind_ok]

theorem bypassAddress_toNat (asi : Asi) (ea : Word) :
    (asi.extractLsb' 0 4 ++ ea).toNat = asi.toNat % 16 * 2 ^ 32 + ea.toNat := by
  rw [toNat_append_eq, toNat_extract_eq, Nat.pow_zero, Nat.div_one]
  rfl

theorem isMemoryAsi_iff (asi : Asi) :
    isMemoryAsi asi = true ↔ asi = 0x08#8 ∨ asi = 0x09#8 ∨ asi = 0x0A#8 ∨ asi = 0x0B#8 := by
  simp only [isMemoryAsi, Bool.or_eq_true, beq_iff_eq, or_assoc]

theorem isBypassAsi_iff (c : Config) (asi : Asi) :
    isBypassAsi c asi = true ↔ (c.mmu = .v8ref ∨ c.mmu = .v8eref) ∧ asi.toNat / 16 = 2 := by
  have hasi := asi.isLt
  rw [isBypassAsi, Bool.and_eq_true, Bool.or_eq_true, beq_iff_eq, beq_iff_eq, beq_iff_eq, ← BitVec.toNat_inj,
    toNat_extract_eq]
  have : asi.toNat / 2 ^ 4 % 2 ^ 4 = asi.toNat / 16 := by omega
  rw [this]
  rfl

theorem resolve_bypass {s : State} {asi : Asi} (hm : s.cfg.mmu = .v8ref ∨ s.cfg.mmu = .v8eref) (ha : asi.toNat / 16 = 2)
    {ea : Word} (hex : s.cfg.physExists (asi.toNat % 16 * 2 ^ 32 + ea.toNat) = true) (kind : AccessKind) :
    resolve s asi ea kind = memoryPlace s (asi.toNat % 16 * 2 ^ 32 + ea.toNat) := by
  have hno : ¬ isMemoryAsi asi = true := by
    rw [isMemoryAsi_iff]
    rintro (rfl | rfl | rfl | rfl) <;> exact absurd ha (by decide)
  rw [resolve, if_neg hno, if_pos ((isBypassAsi_iff s.cfg asi).mpr ⟨hm, ha⟩), bypassAddress_toNat, if_pos hex]

/-- Settles O41. -/
theorem untranslatedAccess : Obligations.UntranslatedAccess := by
  intro s ea asi kind hi
  exact ⟨fun hoff ha hex => (resolve_off hoff ha hex kind).trans (memoryPlace_of_no_inject hi _),
    fun hm ha hex => (resolve_bypass hm ha hex kind).trans (memoryPlace_of_no_inject hi _)⟩

end Sys2Proof.Machine

namespace Sys2Proof.Machine

/-! ## What a load does with the place its access reaches (spec/47_v8_base_memory.md R450 to R456) -/

section
variable {s t : State} {asi : Asi} {ea : Word} {pa : Nat} {rd : RegNum}

theorem loadByte_of_reaches (h : Reaches s asi ea .load pa t) : loadByte s asi ea = .ok (t.byteAt pa) t := by
  rw [loadByte, h]
  rfl

theorem loadHalf_of_reaches (h : Reaches s asi ea .load pa t) : loadHalf s asi ea = .ok (t.halfAt pa) t := by
  rw [loadHalf, h]
  rfl

theorem loadWord_of_reaches (h : Reaches s asi ea .load pa t) : loadWord s asi ea = .ok (t.wordAt pa) t := by
  rw [loadWord, h]
  rfl

theorem loadDouble_of_reaches (h : Reaches s asi ea .load pa t) :
    loadDouble s asi ea = .ok (t.wordAt pa, t.wordAt (pa + 4)) t := by
  rw [loadDouble, h]
  rfl

theorem OnlyTranslation.registers (h : OnlyTranslation s t) :
    t.globals = s.globals ∧ t.windows = s.windows ∧ t.cfg = s.cfg ∧ t.window = s.window := by
  rw [h]
  exact ⟨rfl, rfl, rfl, rfl⟩

/-- A load of one register from a base state that differs from `s` by the translation alone. -/
theorem completes_of_access {i : Instr} {v : Word} (ht : OnlyTranslation s t)
    (h : exec i s = .next (t.setReg rd v).advance) : Completes i s t rd v := by
  obtain ⟨hg, hw, hc, hwin⟩ := ht.registers
  exact completes_of_write h hg hw hc hwin

theorem signExtend_byteAt (t : State) (pa : Nat) :
    (t.byteAt pa).signExtend 32 = BitVec.ofInt 32 (BitVec.ofNat 8 (bigEndian t pa 1)).toInt := by
  rw [bigEndian_one, BitVec.ofNat_toNat, BitVec.setWidth_eq]
  rfl

theorem zeroExtend_byteAt (t : State) (pa : Nat) : (t.byteAt pa).zeroExtend 32 = BitVec.ofNat 32 (bigEndian t pa 1) := by
  rw [bigEndian_one, BitVec.ofNat_toNat]

theorem signExtend_halfAt (t : State) (pa : Nat) :
    (t.halfAt pa).signExtend 32 = BitVec.ofInt 32 (BitVec.ofNat 16 (bigEndian t pa 2)).toInt := by
  rw [← halfAt_toNat, BitVec.ofNat_toNat, BitVec.setWidth_eq]
  rfl

theorem zeroExtend_halfAt (t : State) (pa : Nat) : (t.halfAt pa).zeroExtend 32 = BitVec.ofNat 32 (bigEndian t pa 2) := by
  rw [← halfAt_toNat, BitVec.ofNat_toNat]

theorem regNum_ne_succ (rd : RegNum) : rd ≠ rd + 1#5 := by
  revert rd
  decide

theorem regNum_succ_ne_zero {rd : RegNum} (h : rd.toNat % 2 = 0) : rd + 1#5 ≠ 0#5 := by
  revert rd
  decide

/-- A load of a pair: the second register is another one than the first, and not r[0]. -/
theorem loadsPair_of_access {i : Instr} {v w : Word} (ht : OnlyTranslation s t)
    (he : rd.toNat % 2 = 0) (hn : 2 ≤ s.cfg.nwindows ∧ s.cfg.nwindows ≤ 32)
    (h : exec i s = .next ((t.setReg rd v).setReg (rd + 1#5) w).advance) : LoadsPair i s t rd v w := by
  obtain ⟨hg, hw, hc, hwin⟩ := ht.registers
  have hwin' : (((t.setReg rd v).setReg (rd + 1#5) w).advance).window = t.window := by simp
  have hfirst : (t.setReg rd v).regIn t.window rd = shown rd v := t.regIn_setRegIn_same t.window rd v
  have hpair : (t.setReg rd v).setReg (rd + 1#5) w = (t.setReg rd v).setRegIn t.window (rd + 1#5) w := by
    rw [State.setReg, State.setReg_window]
  refine ⟨_, h, ?_, ?_, ?_, ?_⟩
  · rw [State.reg, hwin', hpair]
    exact (State.regIn_congr rfl rfl rfl _ _).trans
      ((State.regIn_setRegIn_of_ne _ _ w (regNum_ne_succ rd).symm (by rw [State.setReg_cfg, hc]; exact hn)).trans hfirst)
  · rw [State.reg, hwin', hpair]
    refine (State.regIn_congr rfl rfl rfl _ _).trans ((State.regIn_setRegIn_same _ _ _ w).trans ?_)
    exact if_neg (regNum_succ_ne_zero he)
  · rw [← hwin, hpair]
    exact ((t.setRegIn_only t.window rd v).trans (State.setRegIn_only _ t.window (rd + 1#5) w) (State.setReg_cfg ..)).congr
      hg.symm hw.symm hc.symm rfl rfl
  · unfold MovedOn State.advance State.setReg
    rw [State.setRegIn_eq, t.setRegIn_eq]

/-- The six loads from one reached place, each given by the sequence that executes it. -/
theorem loads_of_reaches {sb ub sh uh wd db : Instr} (h : Reaches s asi ea .load pa t)
    (hsb : exec sb s = loadSignedByte s rd asi ea) (hub : exec ub s = loadUnsignedByte s rd asi ea)
    (hsh : exec sh s = loadSignedHalf s rd asi ea) (huh : exec uh s = loadUnsignedHalf s rd asi ea)
    (hwd : exec wd s = loadToRegister s rd asi ea) (hdb : exec db s = loadToPair s rd asi ea) :
    OnlyTranslation s t
    ∧ Completes sb s t rd (BitVec.ofInt 32 (BitVec.ofNat 8 (bigEndian t pa 1)).toInt)
    ∧ Completes ub s t rd (BitVec.ofNat 32 (bigEndian t pa 1))
    ∧ (ea.toNat % 2 = 0 →
      Completes sh s t rd (BitVec.ofInt 32 (BitVec.ofNat 16 (bigEndian t pa 2)).toInt)
      ∧ Completes uh s t rd (BitVec.ofNat 32 (bigEndian t pa 2)))
    ∧ (ea.toNat % 4 = 0 → Completes wd s t rd (BitVec.ofNat 32 (bigEndian t pa 4)))
    ∧ (ea.toNat % 8 = 0 → rd.toNat % 2 = 0 → 2 ≤ s.cfg.nwindows → s.cfg.nwindows ≤ 32 →
      LoadsPair db s t rd (BitVec.ofNat 32 (bigEndian t pa 4)) (BitVec.ofNat 32 (bigEndian t (pa + 4) 4))) := by
  have ht : OnlyTranslation s t := h.spec.1
  rw [← signExtend_byteAt, ← zeroExtend_byteAt, ← signExtend_halfAt, ← zeroExtend_halfAt, ← wordAt_eq_ofNat,
    ← wordAt_eq_ofNat]
  refine ⟨ht, completes_of_access ht ?_, completes_of_access ht ?_,
    fun hal => ⟨completes_of_access ht ?_, completes_of_access ht ?_⟩, fun hal => completes_of_access ht ?_,
    fun hal he h2 h32 => loadsPair_of_access ht he ⟨h2, h32⟩ ?_⟩
  · rw [hsb, loadSignedByte, loadByte_of_reaches h, Access.outcome_ok]
  · rw [hub, loadUnsignedByte, loadByte_of_reaches h, Access.outcome_ok]
  · rw [hsh, loadSignedHalf, whenAligned_of_aligned hal, loadHalf_of_reaches h, Access.outcome_ok]
  · rw [huh, loadUnsignedHalf, whenAligned_of_aligned hal, loadHalf_of_reaches h, Access.outcome_ok]
  · rw [hwd, loadToRegister, whenAligned_of_aligned hal, loadWord_of_reaches h, Access.outcome_ok]
  · rw [hdb, loadToPair, whenEven_of_even he, whenAligned_of_aligned hal, loadDouble_of_reaches h, Access.outcome_ok]

end

/-- Settles O35. -/
theorem loadInstructions : Obligations.LoadInstructions := by
  constructor
  · intro s t rd rs1 op pa ea h
    exact loads_of_reaches h rfl rfl rfl rfl rfl rfl
  · intro s t rd rs1 asi rs2 pa ha ea h
    have asi_ok (k : Host.Outcome State Fault Refusal) : whenAsiAllowed s asi k = k := whenAsiAllowed_of_allowed ha
    exact loads_of_reaches h (asi_ok _) (asi_ok _) (asi_ok _) (asi_ok _) (asi_ok _) (asi_ok _)

end Sys2Proof.Machine

namespace Sys2Proof.Machine

/-! ## What a store does to memory and to the marks (spec/20_memory.md R110, R164) -/

/-- `u` is `t` after the `n` bytes from `pa` were made those of `x`, most significant byte first. -/
def StoredBytes (t u : State) (pa n x : Nat) : Prop :=
  u = { t with mem := u.mem, stale := u.stale, flushed := u.flushed }
  ∧ (∀ k, k < n → (u.byteAt (pa + k)).toNat = x / 256 ^ (n - 1 - k) % 256)
  ∧ MemoryOutside t u pa n
  ∧ MarksStored t u pa n

/-- The marks of a store that lies in the word of its first byte. -/
theorem marksStored_of_word {t u : State} {pa n : Nat} (hs : u.stale = markStale t.stale pa)
    (hf : u.flushed = dropFlushed t.flushed pa) (h0 : 0 < n) (hn : pa % 4 + n ≤ 4) : MarksStored t u pa n := by
  have base : ∀ a, a = wordBase pa ↔ a % 4 = 0 ∧ pa ≤ a + 3 ∧ a < pa + n := by
    intro a
    rw [wordBase]
    omega
  refine ⟨fun a => ?_, fun p => ?_⟩
  · rw [hs, mem_markStale, base]
  · rw [hf, mem_dropFlushed, ne_eq, base]

theorem storedBytes_storeByte {t : State} (hm : Memory.wf t.mem = true) (pa : Nat) (x : Byte) :
    StoredBytes t (t.storeByte pa x) pa 1 x.toNat := by
  refine ⟨rfl, fun k hk => ?_, storeByte_outside hm pa x, marksStored_of_word rfl rfl (by decide) (by omega)⟩
  obtain rfl : k = 0 := by omega
  have hx := x.isLt
  rw [State.byteAt, State.storeByte_mem, readByte_writeByte hm, if_pos (Nat.add_zero pa), Nat.sub_self, Nat.pow_zero, Nat.div_one]
  omega

theorem storedBytes_storeHalf {t : State} (hm : Memory.wf t.mem = true) {pa : Nat} (hpa : pa < 2 ^ 36) (hal : pa % 2 = 0)
    (x : BitVec 16) : StoredBytes t (t.storeHalf pa x) pa 2 x.toNat := by
  refine ⟨rfl, fun k hk => ?_, storeHalf_outside hm x (by omega), marksStored_of_word rfl rfl (by decide) (by omega)⟩
  have h0 := writeByte_wf hm (a := pa) (x.extractLsb' 8 8) hpa
  have hx := x.isLt
  rw [State.byteAt, State.storeHalf, readByte_writeByte h0, readByte_writeByte hm]
  obtain rfl | rfl : k = 0 ∨ k = 1 := by omega
  · rw [if_neg (by omega), if_pos (Nat.add_zero pa), BitVec.extractLsb'_toNat, Nat.shiftRight_eq_div_pow]
    rfl
  · rw [if_pos rfl, BitVec.extractLsb'_toNat, Nat.shiftRight_zero, Nat.sub_self, Nat.pow_zero, Nat.div_one]

theorem byteOfWord_toNat {k : Nat} (hk : k < 4) (x : Word) : (byteOfWord x k).toNat = x.toNat / 256 ^ (3 - k) % 256 := by
  rw [byteOfWord, BitVec.extractLsb'_toNat, Nat.shiftRight_eq_div_pow, show 24 - 8 * k = 8 * (3 - k) by omega, Nat.pow_mul]

theorem readByte_writeWord_at {m : List Host.Cell} (hm : Memory.wf m = true) {pa : Nat} (hpa : pa + 3 < 2 ^ 36) (x : Word)
    {k : Nat} (hk : k < 4) : readByte (writeWord m pa x) (pa + k) = byteOfWord x k := by
  rw [readByte_writeWord hm x hpa]
  obtain rfl | rfl | rfl | rfl : k = 0 ∨ k = 1 ∨ k = 2 ∨ k = 3 := by omega
  all_goals simp

theorem storedBytes_storeWord {t : State} (hm : Memory.wf t.mem = true) {pa : Nat} (hpa : pa < 2 ^ 36) (hal : pa % 4 = 0)
    (x : Word) : StoredBytes t (t.storeWord pa x) pa 4 x.toNat := by
  have hlast : pa + 3 < 2 ^ 36 := by omega
  refine ⟨rfl, fun k hk => ?_, storeWord_outside hm x hlast, marksStored_of_word rfl rfl (by decide) (by omega)⟩
  rw [State.byteAt, State.storeWord_mem, readByte_writeWord_at hm hlast x hk, byteOfWord_toNat hk]

/-- Two stores side by side are one store of both values. -/
theorem StoredBytes.append {t u v : State} {pa m n x y : Nat} (h1 : StoredBytes t u pa m x)
    (h2 : StoredBytes u v (pa + m) n y) (hy : y < 256 ^ n) : StoredBytes t v pa (m + n) (x * 256 ^ n + y) := by
  obtain ⟨hu, hbytes1, hout1, hstale1, hflush1⟩ := h1
  obtain ⟨hv, hbytes2, hout2, hstale2, hflush2⟩ := h2
  refine ⟨?_, fun k hk => ?_, fun a ha => ?_, fun a => ?_, fun p => ?_⟩
  · rw [hv, hu]
  · by_cases hkm : k < m
    · rw [hout2 (pa + k) (by omega), hbytes1 k hkm, show m + n - 1 - k = n + (m - 1 - k) by omega, Nat.pow_add,
        ← Nat.div_div_eq_div_mul, Nat.mul_comm x, Nat.mul_add_div (Nat.pow_pos (by decide)), Nat.div_eq_of_lt hy, Nat.add_zero]
    · obtain ⟨j, rfl⟩ := Nat.exists_eq_add_of_le (Nat.le_of_not_lt hkm)
      rw [← Nat.add_assoc, hbytes2 j (by omega), show m + n - 1 - (m + j) = n - 1 - j by omega]
      have hpow : 256 ^ n = 256 ^ (n - 1 - j) * (256 * 256 ^ j) := by
        rw [← Nat.pow_succ', ← Nat.pow_add]
        congr 1
        omega
      rw [hpow, Nat.mul_left_comm, Nat.mul_add_div (Nat.pow_pos (by decide)), Nat.mul_left_comm, Nat.mul_add_mod]
  · rw [hout2 a (by omega), hout1 a (by omega)]
  · rw [hstale2, hstale1, or_assoc]
    refine or_congr_right ?_
    omega
  · rw [hflush2, hflush1, and_assoc, ← not_or]
    refine and_congr_right fun _ => not_congr ?_
    omega

/-! ## The stores (spec/47_v8_base_memory.md R457 to R460) -/

theorem stores_of_storedBytes {i : Instr} {s t u : State} {pa n x : Nat} (h : exec i s = .next u.advance)
    (hu : StoredBytes t u pa n x) : Stores i s t pa n x := by
  obtain ⟨honly, hbytes, hout, hmarks⟩ := hu
  refine ⟨_, h, ?_, hbytes, hout, hmarks⟩
  unfold StoredAndMovedOn
  rw [State.advance, honly]

section
variable {s t : State} {asi : Asi} {ea : Word} {pa : Nat} {rd : RegNum}

theorem putByte_of_reaches (h : Reaches s asi ea .store pa t) (x : Byte) : putByte s asi ea x = .ok () (t.storeByte pa x) := by
  rw [putByte, h]
  rfl

theorem putHalf_of_reaches (h : Reaches s asi ea .store pa t) (x : BitVec 16) :
    putHalf s asi ea x = .ok () (t.storeHalf pa x) := by
  rw [putHalf, h]
  rfl

theorem putWord_of_reaches (h : Reaches s asi ea .store pa t) (x : Word) : putWord s asi ea x = .ok () (t.storeWord pa x) := by
  rw [putWord, h]
  rfl

theorem putDouble_of_reaches (h : Reaches s asi ea .store pa t) (x y : Word) :
    putDouble s asi ea x y = .ok () ((t.storeWord pa x).storeWord (pa + 4) y) := by
  rw [putDouble, h]
  rfl

theorem Inv.memory {s : State} (h : Inv s) : Memory.wf s.mem = true := by
  obtain ⟨-, -, -, -, -, -, -, hm, -⟩ := h
  exact hm

/-- The four stores to one reached place, each given by the sequence that executes it. -/
theorem stores_of_reaches {sb sh st sd : Instr} (hinv : Inv s) (h : Reaches s asi ea .store pa t)
    (hsb : exec sb s = storeLowByte s rd asi ea) (hsh : exec sh s = storeLowHalf s rd asi ea)
    (hst : exec st s = storeRegister s rd asi ea) (hsd : exec sd s = storePair s rd asi ea) :
    OnlyTranslation s t
    ∧ Stores sb s t pa 1 ((s.reg rd).toNat % 256)
    ∧ (ea.toNat % 2 = 0 → Stores sh s t pa 2 ((s.reg rd).toNat % 65536))
    ∧ (ea.toNat % 4 = 0 → Stores st s t pa 4 (s.reg rd).toNat)
    ∧ (ea.toNat % 8 = 0 → rd.toNat % 2 = 0 →
      Stores sd s t pa 8 ((s.reg rd).toNat * 2 ^ 32 + (s.reg (rd + 1#5)).toNat)) := by
  obtain ⟨ht, hoff, hpa, hmem⟩ := h.spec
  have hm : Memory.wf t.mem = true := hmem hinv.memory hinv.paBits
  have hlow (n : Nat) (x : Word) : (x.extractLsb' 0 n).toNat = x.toNat % 2 ^ n := by
    rw [BitVec.extractLsb'_toNat, Nat.shiftRight_zero]
  refine ⟨ht, ?_, fun hal => ?_, fun hal => ?_, fun hal he => ?_⟩
  · refine stores_of_storedBytes ?_ (hlow 8 (s.reg rd) ▸ storedBytes_storeByte hm pa _)
    rw [hsb, storeLowByte, putByte_of_reaches h, Access.outcome_ok]
  · refine stores_of_storedBytes ?_ (hlow 16 (s.reg rd) ▸ storedBytes_storeHalf hm hpa (by omega) _)
    rw [hsh, storeLowHalf, whenAligned_of_aligned hal, putHalf_of_reaches h, Access.outcome_ok]
  · refine stores_of_storedBytes ?_ (storedBytes_storeWord hm hpa (by omega) _)
    rw [hst, storeRegister, whenAligned_of_aligned hal, putWord_of_reaches h, Access.outcome_ok]
  · have hfirst := storedBytes_storeWord hm hpa (by omega) (s.reg rd)
    have hm' : Memory.wf (t.storeWord pa (s.reg rd)).mem = true := writeWord_wf hm _ (by omega)
    have hsecond := storedBytes_storeWord hm' (pa := pa + 4) (by omega) (by omega) (s.reg (rd + 1#5))
    refine stores_of_storedBytes ?_ (hfirst.append hsecond (s.reg (rd + 1#5)).isLt)
    rw [hsd, storePair, whenEven_of_even he, whenAligned_of_aligned hal, putDouble_of_reaches h, Access.outcome_ok]

end

/-- Settles O36. -/
theorem storeInstructions : Obligations.StoreInstructions := by
  constructor
  · intro s t rd rs1 op pa hinv ea h
    exact stores_of_reaches hinv h rfl rfl rfl rfl
  · intro s t rd rs1 asi rs2 pa hinv ha ea h
    have asi_ok (k : Host.Outcome State Fault Refusal) : whenAsiAllowed s asi k = k := whenAsiAllowed_of_allowed ha
    exact stores_of_reaches hinv h (asi_ok _) (asi_ok _) (asi_ok _) (asi_ok _)

/-! ## The atomic instructions (spec/47_v8_base_memory.md R461, R462) -/

section
variable {s t : State} {asi : Asi} {ea : Word} {pa : Nat} {rd : RegNum}

theorem testAndSet_of_reaches (h : Reaches s asi ea .atomic pa t) :
    testAndSet s asi ea = .ok (t.byteAt pa) (t.storeByte pa 0xFF#8) := by
  rw [testAndSet, h]
  rfl

theorem exchange_of_reaches (h : Reaches s asi ea .atomic pa t) (x : Word) :
    exchange s asi ea x = .ok (t.wordAt pa) (t.storeWord pa x) := by
  rw [exchange, h]
  rfl

/-- A register write leaves memory as the store left it. -/
theorem exchanges_of_storedBytes {i : Instr} {u : State} {n x : Nat} {v : Word} (ht : OnlyTranslation s t)
    (hu : StoredBytes t u pa n x) (h : exec i s = .next (u.setReg rd v).advance) : Exchanges i s t pa n x rd v := by
  obtain ⟨honly, hbytes, hout, hstale, hflushed⟩ := hu
  obtain ⟨hg, hw, hc, hwin⟩ := ht.registers
  have hregs : u.globals = s.globals ∧ u.windows = s.windows ∧ u.cfg = s.cfg ∧ u.window = s.window := by
    rw [honly]
    exact ⟨hg, hw, hc, hwin⟩
  obtain ⟨hg, hw, hc, hwin⟩ := hregs
  obtain ⟨w, hexec, hreg, hregisters, hmoved⟩ := completes_of_write h hg hw hc hwin
  obtain rfl : w = (u.setReg rd v).advance := by
    rw [h] at hexec
    injection hexec with hexec
    exact hexec.symm
  have hmem : ((u.setReg rd v).advance).mem = u.mem := u.setReg_mem rd v
  have hbyte (a : Nat) : ((u.setReg rd v).advance).byteAt a = u.byteAt a := congrArg (readByte · a) hmem
  refine ⟨_, h, hreg, hregisters, fun k hk => ?_, fun a ha => ?_, ⟨fun a => ?_, fun p => ?_⟩, ?_⟩
  · rw [hbyte, hbytes k hk]
  · rw [hbyte, hout a ha]
  · rw [← hstale]
    exact iff_of_eq (congrArg (a ∈ ·) (u.setReg_stale rd v))
  · rw [← hflushed]
    exact iff_of_eq (congrArg (p ∈ ·) (u.setReg_flushed rd v))
  · have hpc : t.npc = s.npc := by rw [ht]
    unfold MovedOn at hmoved
    rw [hmoved, honly, hpc]

/-- The two atomic accesses to one reached place, each given by the sequence that executes it. -/
theorem exchanges_of_reaches {lb sw : Instr} (hinv : Inv s) (h : Reaches s asi ea .atomic pa t)
    (hlb : exec lb s = loadAndSet s rd asi ea) (hsw : exec sw s = swapRegister s rd asi ea) :
    OnlyTranslation s t
    ∧ Exchanges lb s t pa 1 0xFF rd (BitVec.ofNat 32 (bigEndian t pa 1))
    ∧ (ea.toNat % 4 = 0 → Exchanges sw s t pa 4 (s.reg rd).toNat rd (BitVec.ofNat 32 (bigEndian t pa 4))) := by
  obtain ⟨ht, hoff, hpa, hmem⟩ := h.spec
  have hm : Memory.wf t.mem = true := hmem hinv.memory hinv.paBits
  rw [← zeroExtend_byteAt, ← wordAt_eq_ofNat]
  refine ⟨ht, exchanges_of_storedBytes ht (storedBytes_storeByte hm pa 0xFF#8) ?_, fun hal =>
    exchanges_of_storedBytes ht (storedBytes_storeWord hm hpa (by omega) _) ?_⟩
  · rw [hlb, loadAndSet, testAndSet_of_reaches h, Access.outcome_ok]
  · rw [hsw, swapRegister, whenAligned_of_aligned hal, exchange_of_reaches h, Access.outcome_ok]

end

/-- Settles O37. -/
theorem atomicInstructions : Obligations.AtomicInstructions := by
  constructor
  · intro s t rd rs1 op pa hinv ea h
    exact exchanges_of_reaches hinv h rfl rfl
  · intro s t rd rs1 asi rs2 pa hinv ha ea h
    have asi_ok (k : Host.Outcome State Fault Refusal) : whenAsiAllowed s asi k = k := whenAsiAllowed_of_allowed ha
    exact exchanges_of_reaches hinv h (asi_ok _) (asi_ok _)

end Sys2Proof.Machine

namespace Sys2Proof.Machine

/-! ## FLUSH and the marks of stored words (spec/48_v8_base_system.md R491; spec/20_memory.md R164) -/

theorem probe_off {s : State} (h : TranslationOff s) (ea : Word) : probe s ea = some ea.toNat := by
  rw [probe]
  rcases h with h | ⟨h | h, hen⟩
  · rw [h]
  · rw [h, if_neg (Bool.eq_false_iff.mp hen)]
  · rw [h, if_neg (Bool.eq_false_iff.mp hen)]

/-- What a fetch does with the place it reaches. -/
theorem fetch_of_locate {s t : State} {pa : Nat} (h : locate s s.pc (fetchAsi s) .fetch = .ok pa t)
    (hi : t.inject ≠ some .fetch) :
    fetch s = if wordBase pa ∈ t.stale ∧ (wordBase pa, s.pc.toNat / 8) ∉ t.flushed then .refused .staleFetch
      else .ok (t.wordAt pa) t := by
  rw [fetch, h, Access.bind_ok, if_neg hi]
  refine if_congr ?_ rfl rfl
  rw [Bool.and_eq_true, Bool.not_eq_true', List.contains_iff_mem, Bool.eq_false_iff, ne_eq, List.contains_iff_mem]

/-- Settles O34. -/
theorem flush : Obligations.Flush := by
  constructor
  · intro s rs1 op ea
    refine ⟨_, rfl, ?_, fun pa hpa => ?_, fun hnone => ?_, fun hoff => probe_off hoff ea⟩
    · rcases s.flushWord_spec ea with ⟨pa, -, hflush⟩ | ⟨-, hflush⟩
      all_goals rw [hflush]; rfl
    · rcases s.flushWord_spec ea with ⟨pa', hpa', hflush⟩ | ⟨hno, -⟩
      · obtain rfl : pa' = pa := Option.some.inj (hpa'.symm.trans hpa)
        rw [hflush]
        exact ⟨rfl, fun a => mem_flushMarks s.stale pa' a⟩
      · exact absurd (hno.symm.trans hpa) (by simp)
    · rcases s.flushWord_spec ea with ⟨pa', hpa', -⟩ | ⟨-, hflush⟩
      · exact absurd (hpa'.symm.trans hnone) (by simp)
      · rw [hflush]
        refine ⟨rfl, fun ⟨a, d⟩ => ?_⟩
        simp only [State.advance, List.mem_append, List.mem_map, Prod.mk.injEq]
        constructor
        · rintro (⟨b, hb, rfl, rfl⟩ | hold)
          · exact .inr ⟨hb, rfl⟩
          · exact .inl hold
        · rintro (hold | ⟨ha, rfl⟩)
          · exact .inr hold
          · exact .inl ⟨a, ha, rfl, rfl⟩
  · intro s t pa h hi
    rw [fetch_of_locate h hi, wordBase]
    split
    · exact iff_of_true rfl ‹_›
    · exact iff_of_false (by simp) ‹_›

end Sys2Proof.Machine

namespace Sys2Proof

theorem Config.ptdFault_of_wf {c : Config} (h : c.wf = true) : c.ptdFault = 4#3 ∨ c.ptdFault = 1#3 := by
  rw [Config.wf, Config.deviceWf, Bool.and_eq_true, Bool.and_eq_true, Bool.or_eq_true, beq_iff_eq, beq_iff_eq] at h
  obtain ⟨-, -, hf⟩ := h
  exact hf

end Sys2Proof

namespace Sys2Proof.Machine

/-! ## The walk level by level (spec/20_memory.md R135, R136) -/

theorem etField_eq_iff (w : Word) (k : BitVec 2) : etField w = k ↔ w.toNat % 4 = k.toNat := by
  rw [etField, ← BitVec.toNat_inj, BitVec.extractLsb'_toNat, Nat.shiftRight_zero]

theorem v8e_iff (c : Config) : c.v8e = true ↔ c.mmu = .v8eref := by
  rw [Config.v8e, beq_iff_eq]

theorem v8e_eq_decide (c : Config) : c.v8e = decide (c.mmu = .v8eref) := by
  rw [Bool.eq_iff_iff, v8e_iff, decide_eq_true_iff]

theorem tablePointer_eq (c : Config) (w : Word) :
    tablePointer c.v8e w = if c.mmu = .v8eref then w.toNat / 16 * 256 else w.toNat / 4 * 64 := by
  have hw := w.isLt
  rw [tablePointer]
  refine if_congr (v8e_iff c) ?_ ?_
  · rw [BitVec.extractLsb'_toNat, Nat.shiftRight_eq_div_pow, Nat.mod_eq_of_lt (by omega)]
  · rw [BitVec.extractLsb'_toNat, Nat.shiftRight_eq_div_pow, Nat.mod_eq_of_lt (by omega)]

section
variable {s : State} {va : Word} {level : BitVec 2} {table a fuel : Nat} {ke : Bool}

/-- One level of the walk in a table that is aligned and whose entry exists. -/
theorem walkFrom_tableAt (ht : TableAt s table (tableSize s.cfg level ke) a)
    (ha : a = table + 4 * tableIndex s.ctx va level ke) :
    walkFrom s va s.cfg.v8e (fuel + 1) level table ke =
      if etField (s.wordAt a) = 0#2 then .fault 1#3 level
      else if etField (s.wordAt a) = 1#2 then
        if level = 3#2 then .fault s.cfg.ptdFault level
        else walkFrom s va s.cfg.v8e fuel (level + 1#2) (tablePointer s.cfg.v8e (s.wordAt a))
          (s.cfg.v8e && level == 2#2 && (s.wordAt a).getLsbD 2)
      else if etField (s.wordAt a) = 2#2 || s.cfg.v8e then .entry a (s.wordAt a) level ke
      else .fault 4#3 level := by
  obtain ⟨hsize, hex⟩ := ht
  subst ha
  rw [walkFrom, if_neg (not_not_intro hsize), if_neg (by simp [hex])]

/-- The walk goes on to the next table. -/
theorem walkFrom_of_isTable (ht : TableAt s table (tableSize s.cfg level ke) a)
    (ha : a = table + 4 * tableIndex s.ctx va level ke) (het : (s.wordAt a).toNat % 4 = 1) (hl : level ≠ 3#2) :
    walkFrom s va s.cfg.v8e (fuel + 1) level table ke
      = walkFrom s va s.cfg.v8e fuel (level + 1#2) (tablePointer s.cfg.v8e (s.wordAt a))
          (s.cfg.v8e && level == 2#2 && (s.wordAt a).getLsbD 2) := by
  have h1 : etField (s.wordAt a) = 1#2 := (etField_eq_iff _ _).mpr het
  rw [walkFrom_tableAt ht ha, if_neg (by rw [h1]; decide), if_pos h1, if_neg hl]

/-- A table pointer at level 3 is the fault that the implementation gives it. -/
theorem walkFrom_of_isTable_last (ht : TableAt s table (tableSize s.cfg 3#2 ke) a)
    (ha : a = table + 4 * tableIndex s.ctx va 3#2 ke) (het : (s.wordAt a).toNat % 4 = 1) :
    walkFrom s va s.cfg.v8e (fuel + 1) 3#2 table ke = .fault s.cfg.ptdFault 3#2 := by
  have h1 : etField (s.wordAt a) = 1#2 := (etField_eq_iff _ _).mpr het
  rw [walkFrom_tableAt ht ha, if_neg (by rw [h1]; decide), if_pos h1, if_pos rfl]

/-- The walk ends at an entry that is no table. -/
theorem endsAt_of_walkFrom (hw : walk s va s.cfg.v8e = walkFrom s va s.cfg.v8e (fuel + 1) level table ke)
    (ht : TableAt s table (tableSize s.cfg level ke) a) (ha : a = table + 4 * tableIndex s.ctx va level ke) :
    EndsAt s va a level ke := by
  unfold EndsAt
  have hinvalid : etField (s.wordAt a) = 0#2 ↔ (s.wordAt a).toNat % 4 = 0 := etField_eq_iff _ _
  have htable : etField (s.wordAt a) = 1#2 ↔ (s.wordAt a).toNat % 4 = 1 := etField_eq_iff _ _
  have hpte : etField (s.wordAt a) = 2#2 ↔ (s.wordAt a).toNat % 4 = 2 := etField_eq_iff _ _
  simp only [hw, walkFrom_tableAt ht ha, Bool.or_eq_true, decide_eq_true_iff, v8e_iff, hinvalid, htable, hpte]
  refine ⟨fun h0 => if_pos h0, fun hpage => ?_, fun ⟨h3, hv8⟩ => ?_⟩
  · have hlarge : 2 ≤ (s.wordAt a).toNat % 4 := by omega
    rw [if_neg (show ¬ (s.wordAt a).toNat % 4 = 0 by omega), if_neg (show ¬ (s.wordAt a).toNat % 4 = 1 by omega),
      if_pos (hpage.imp_right And.right)]
  · rw [if_neg (show ¬ (s.wordAt a).toNat % 4 = 0 by omega), if_neg (show ¬ (s.wordAt a).toNat % 4 = 1 by omega),
      if_neg (not_or.mpr ⟨show ¬ (s.wordAt a).toNat % 4 = 2 by omega, hv8⟩)]

end

/-! ## What a translation writes to memory (spec/20_memory.md R140) -/

section
variable {s t : State} {va : Word} {asi : Asi} {kind : AccessKind}

theorem touchPte_outside (hm : Memory.wf s.mem = true) (hp : s.cfg.paBits ≤ 36) {addr : Nat}
    (ha : s.cfg.physExists (addr + 3) = true) (w : Bool) : MemoryOutside s (s.touchPte addr w) addr 4 :=
  storeWord_outside hm _ (physExists_lt hp ha)

theorem wordAt_touchPte (hm : Memory.wf s.mem = true) (hp : s.cfg.paBits ≤ 36) {addr : Nat}
    (ha : s.cfg.physExists (addr + 3) = true) (w : Bool) :
    (s.touchPte addr w).wordAt addr = setReferenced (s.wordAt addr) w :=
  wordAt_storeWord hm _ (physExists_lt hp ha)

theorem byteAt_congr {s t : State} (h : t.mem = s.mem) (a : Nat) : t.byteAt a = s.byteAt a := congrArg (readByte · a) h

theorem enterTlb_mem (s : State) (e : TlbEntry) : (s.enterTlb e).mem = s.mem := by
  rcases s.enterTlb_spec e with ⟨-, h⟩ | ⟨_, _, -, -, h⟩ <;> rw [h]

/-- The entry that a walk ends at is the only part of memory that an update of R and M changes. -/
theorem touchHit_frame (hm : Memory.wf s.mem = true) (hp : s.cfg.paBits ≤ 36) (e : TlbEntry) (w : Bool) {a : Nat}
    (ha : OutsideEntry s va a) : (s.touchHit va e w).byteAt a = s.byteAt a := by
  unfold State.touchHit
  split
  · split
    · rename_i addr pte level ke hwalk
      exact touchPte_outside hm hp (walkFrom_entry hwalk).1 w a (ha addr pte level ke hwalk)
    · rfl
    · rfl
  · rfl

theorem translateMmu_frame (hm : Memory.wf s.mem = true) (hp : s.cfg.paBits ≤ 36) {pa : PhysAddr}
    (h : translateMmu s va asi kind = .ok pa t) {a : Nat} (ha : OutsideEntry s va a) : t.byteAt a = s.byteAt a := by
  unfold translateMmu mmuFault mmuMiss at h
  split at h
  · split at h
    · split at h
      · cases h
      · cases h
      · rename_i addr pte level ke hwalk
        obtain ⟨rfl, -, -⟩ := usePage_ok h
        have hmem := enterTlb_mem s (entryOf s va pte level ke)
        have hcfg : (s.enterTlb (entryOf s va pte level ke)).cfg = s.cfg := (enterTlb_only s _).cfg
        exact (touchPte_outside (hmem ▸ hm) (hcfg ▸ hp) (hcfg ▸ (walkFrom_entry hwalk).1) kind.writes a
          (ha addr pte level ke hwalk)).trans (byteAt_congr hmem a)
    · split at h <;> cases h
  · split at h
    · rename_i e _
      obtain ⟨rfl, -, -⟩ := usePage_ok h
      exact touchHit_frame hm hp e kind.writes ha
    · split at h <;> cases h
  · cases h

theorem translate_frame (hm : Memory.wf s.mem = true) (hp : s.cfg.paBits ≤ 36) {pa : PhysAddr}
    (h : translate s va asi kind = .ok pa t) {a : Nat} (ha : OutsideEntry s va a) : t.byteAt a = s.byteAt a := by
  unfold translate at h
  split at h
  · cases h
    rfl
  · cases h
    rfl
  all_goals
    split at h
    · exact translateMmu_frame hm hp h ha
    · cases h
      rfl

theorem locate_frame (hm : Memory.wf s.mem = true) (hp : s.cfg.paBits ≤ 36) {pa : Nat}
    (h : locate s va asi kind = .ok pa t) {a : Nat} (ha : OutsideEntry s va a) : t.byteAt a = s.byteAt a := by
  obtain ⟨p, u, htranslate, hexists⟩ := Access.bind_eq_ok h
  split at hexists
  · cases hexists
    exact translate_frame hm hp htranslate ha
  · cases hexists

theorem memoryPlace_ok {pa : Nat} {p : Place} (h : memoryPlace s pa = .ok p t) : t = s := by
  unfold memoryPlace at h
  split at h
  · cases h
  · cases h
    rfl

theorem resolve_frame (hm : Memory.wf s.mem = true) (hp : s.cfg.paBits ≤ 36) {p : Place}
    (h : resolve s asi va kind = .ok p t) {a : Nat} (ha : OutsideEntry s va a) : t.byteAt a = s.byteAt a := by
  unfold resolve at h
  split at h
  · obtain ⟨pa, u, hlocate, hplace⟩ := Access.bind_eq_ok h
    rw [memoryPlace_ok hplace]
    exact locate_frame hm hp hlocate ha
  · split at h
    · dsimp only at h
      split at h
      · rw [memoryPlace_ok h]
      · cases h
    · split at h
      · cases h
        rfl
      · cases h

end

/-- Settles O45: the frame of a translation, then the walk followed from the context table to level 3. -/
theorem translationFrame : Obligations.TranslationFrame := by
  constructor
  · intro s t asi ea kind pa hinv h
    obtain ⟨ht, hoff, -, hmem⟩ := h.spec
    exact ⟨ht, hoff, hmem hinv.memory hinv.paBits, fun a ha => resolve_frame hinv.memory hinv.paBits h ha⟩
  · intro s va table a0 t1 a1 t2 a2 ke t3 a3 isTable htab0
    have hindex (k n : Nat) : (va.extractLsb' k n).toNat = va.toNat / 2 ^ k % 2 ^ n := by
      rw [BitVec.extractLsb'_toNat, Nat.shiftRight_eq_div_pow]
    have hva := va.isLt
    have ha0 : a0 = s.ctp.toNat * 64 + 4 * tableIndex s.ctx va 0#2 false := rfl
    have ha1 : a1 = t1 + 4 * tableIndex s.ctx va 1#2 false := by
      rw [show tableIndex s.ctx va 1#2 false = (va.extractLsb' 24 8).toNat from rfl, hindex, Nat.mod_eq_of_lt (by omega)]
    have ha2 : a2 = t2 + 4 * tableIndex s.ctx va 2#2 false :=
      congrArg (t2 + 4 * ·) (hindex 18 6).symm
    have hlast : (if ke = true then va.toNat / 2 ^ 10 % 256 else va.toNat / 2 ^ 12 % 64)
        = if ke = true then (va.extractLsb' 10 8).toNat else (va.extractLsb' 12 6).toNat :=
      if_congr Iff.rfl (hindex 10 8).symm (hindex 12 6).symm
    have ha3 : a3 = t3 + 4 * tableIndex s.ctx va 3#2 ke := congrArg (t3 + 4 * ·) hlast
    have ht1 : tablePointer s.cfg.v8e (s.wordAt a0) = t1 := tablePointer_eq ..
    have ht2 : tablePointer s.cfg.v8e (s.wordAt a1) = t2 := tablePointer_eq ..
    have ht3 : tablePointer s.cfg.v8e (s.wordAt a2) = t3 := tablePointer_eq ..
    have hke : (s.cfg.v8e && (s.wordAt a2).getLsbD 2) = ke := by rw [v8e_eq_decide]
    clear_value a3 t3 ke a2 t2 a1 t1 a0 table
    refine ⟨endsAt_of_walkFrom (fuel := 3) rfl htab0 ha0, fun h0 htab1 => ?_⟩
    have hw1 : walk s va s.cfg.v8e = walkFrom s va s.cfg.v8e 3 1#2 t1 false := by
      refine (walkFrom_of_isTable (fuel := 3) htab0 ha0 h0 (by decide)).trans ?_
      rw [ht1, show (0#2 == 2#2) = false from rfl, Bool.and_false, Bool.false_and]
      rfl
    refine ⟨endsAt_of_walkFrom hw1 htab1 ha1, fun h1 htab2 => ?_⟩
    have hw2 : walk s va s.cfg.v8e = walkFrom s va s.cfg.v8e 2 2#2 t2 false := by
      refine hw1.trans ((walkFrom_of_isTable htab1 ha1 h1 (by decide)).trans ?_)
      rw [ht2, show (1#2 == 2#2) = false from rfl, Bool.and_false, Bool.false_and]
      rfl
    refine ⟨endsAt_of_walkFrom hw2 htab2 ha2, fun h2 htab3 => ?_⟩
    have hw3 : walk s va s.cfg.v8e = walkFrom s va s.cfg.v8e 1 3#2 t3 ke := by
      refine hw2.trans ((walkFrom_of_isTable htab2 ha2 h2 (by decide)).trans ?_)
      rw [ht3, show (2#2 == 2#2) = true from rfl, Bool.and_true, hke]
      rfl
    exact ⟨endsAt_of_walkFrom hw3 htab3 ha3, fun h3 =>
      ⟨hw3.trans (walkFrom_of_isTable_last htab3 ha3 h3), Config.ptdFault_of_wf⟩⟩

end Sys2Proof.Machine

namespace Sys2Proof.Machine

/-! ## An access that traps (spec/47_v8_base_memory.md R450; spec/60_exceptions.md R502; log 26) -/

/-- What a bus error can have done: the translation before it, and the injected error is taken. -/
def TookBusError (s : State) (va : Word) (u : State) : Prop :=
  s.inject = some .data
  ∧ ∃ t, OnlyTranslation s t ∧ (Inv s → ∀ b, OutsideEntry s va b → t.byteAt b = s.byteAt b) ∧ u = { t with inject := none }

section
variable {s t u : State} {asi : Asi} {va ea : Word} {kind : AccessKind} {tt : TrapType} {rd : RegNum}

theorem locate_trap (h : locate s va asi kind = .trap tt u) : translate s va asi kind = .trap tt u := by
  unfold locate at h
  cases htranslate : translate s va asi kind with
  | ok pa t =>
    rw [htranslate, Access.bind_ok] at h
    split at h <;> cases h
  | trap tt' t =>
    rw [htranslate, Access.bind_trap] at h
    cases h
    rfl
  | fault r => rw [htranslate] at h; cases h
  | refused r => rw [htranslate] at h; cases h

theorem memoryPlace_trap {pa : Nat} (h : memoryPlace s pa = .trap tt u) :
    s.inject = some .data ∧ u = { s with inject := none } := by
  unfold memoryPlace at h
  split at h
  · cases h
    exact ⟨‹_›, rfl⟩
  · cases h

/-- An access traps in the translation or, after it, on the bus. -/
theorem resolve_trap (h : resolve s asi va kind = .trap tt u) :
    u = { s with fsr := u.fsr, far := u.far, tlb := u.tlb, freeCount := u.freeCount } ∨ TookBusError s va u := by
  unfold resolve at h
  split at h
  · cases hlocate : locate s va asi kind with
    | ok pa t =>
      rw [hlocate] at h
      obtain ⟨hinject, hu⟩ := memoryPlace_trap h
      have ht : OnlyTranslation s t := (locate_ok hlocate).1
      have hsame : t.inject = s.inject := by rw [ht]
      exact .inr ⟨hsame.symm.trans hinject, t, ht,
        fun hinv b hb => locate_frame hinv.memory hinv.paBits hlocate hb, hu⟩
    | trap tt' t =>
      rw [hlocate] at h
      cases h
      exact .inl (translate_trap (locate_trap hlocate))
    | fault r => rw [hlocate] at h; cases h
    | refused r => rw [hlocate] at h; cases h
  · split at h
    · dsimp only at h
      split at h
      · obtain ⟨hinject, hu⟩ := memoryPlace_trap h
        exact .inr ⟨hinject, s, .refl s, fun _ _ _ => rfl, hu⟩
      · cases h
    · split at h <;> cases h

theorem resolve_trap_frame (h : resolve s asi va kind = .trap tt u) :
    OnlyFaultStatus s u ∧ (Inv s → ∀ b, OutsideEntry s va b → u.byteAt b = s.byteAt b) := by
  rcases resolve_trap h with hu | ⟨hinject, t, ht, hframe, hu⟩
  · have hmem : u.mem = s.mem := by rw [hu]
    have hinj : u.inject = s.inject := by rw [hu]
    refine ⟨⟨?_, fun _ => ⟨hmem, hinj⟩⟩, fun _ b _ => byteAt_congr hmem b⟩
    rw [hu]
  · refine ⟨⟨?_, fun hno => absurd hinject hno⟩, fun hinv b hb => ?_⟩
    · rw [hu, ht]
    · rw [hu]
      exact hframe hinv b hb

/-! The sequences pass the trap of their access on. -/

theorem outcome_of_trap {α : Type} {x : Access α} {k : α → State → State} (h : x = .trap tt u) :
    x.outcome k = .next (u.raise tt) := by
  rw [h]
  rfl

theorem loads_of_trap {sb ub sh uh wd db : Instr} (h : resolve s asi ea .load = .trap tt u)
    (hsb : exec sb s = loadSignedByte s rd asi ea) (hub : exec ub s = loadUnsignedByte s rd asi ea)
    (hsh : exec sh s = loadSignedHalf s rd asi ea) (huh : exec uh s = loadUnsignedHalf s rd asi ea)
    (hwd : exec wd s = loadToRegister s rd asi ea) (hdb : exec db s = loadToPair s rd asi ea) :
    (∀ i ∈ [sb, ub], exec i s = .next (u.raise tt))
    ∧ (ea.toNat % 2 = 0 → ∀ i ∈ [sh, uh], exec i s = .next (u.raise tt))
    ∧ (ea.toNat % 4 = 0 → exec wd s = .next (u.raise tt))
    ∧ (ea.toNat % 8 = 0 → rd.toNat % 2 = 0 → exec db s = .next (u.raise tt)) := by
  have hbyte : loadByte s asi ea = .trap tt u := by rw [loadByte, h]; rfl
  have hhalf : loadHalf s asi ea = .trap tt u := by rw [loadHalf, h]; rfl
  have hword : loadWord s asi ea = .trap tt u := by rw [loadWord, h]; rfl
  have hdouble : loadDouble s asi ea = .trap tt u := by rw [loadDouble, h]; rfl
  refine ⟨List.forall_iff_forall_mem.mp ⟨hsb.trans (outcome_of_trap hbyte), hub.trans (outcome_of_trap hbyte)⟩,
    fun hal => List.forall_iff_forall_mem.mp ⟨hsh.trans ?_, huh.trans ?_⟩, fun hal => hwd.trans ?_,
    fun hal he => hdb.trans ?_⟩
  · exact (whenAligned_of_aligned hal).trans (outcome_of_trap hhalf)
  · exact (whenAligned_of_aligned hal).trans (outcome_of_trap hhalf)
  · exact (whenAligned_of_aligned hal).trans (outcome_of_trap hword)
  · exact (whenEven_of_even he).trans ((whenAligned_of_aligned hal).trans (outcome_of_trap hdouble))

theorem stores_of_trap {sb sh st sd : Instr} (h : resolve s asi ea .store = .trap tt u)
    (hsb : exec sb s = storeLowByte s rd asi ea) (hsh : exec sh s = storeLowHalf s rd asi ea)
    (hst : exec st s = storeRegister s rd asi ea) (hsd : exec sd s = storePair s rd asi ea) :
    exec sb s = .next (u.raise tt)
    ∧ (ea.toNat % 2 = 0 → exec sh s = .next (u.raise tt))
    ∧ (ea.toNat % 4 = 0 → exec st s = .next (u.raise tt))
    ∧ (ea.toNat % 8 = 0 → rd.toNat % 2 = 0 → exec sd s = .next (u.raise tt)) := by
  have hbyte (x : Byte) : putByte s asi ea x = .trap tt u := by rw [putByte, h]; rfl
  have hhalf (x : BitVec 16) : putHalf s asi ea x = .trap tt u := by rw [putHalf, h]; rfl
  have hword (x : Word) : putWord s asi ea x = .trap tt u := by rw [putWord, h]; rfl
  have hdouble (x y : Word) : putDouble s asi ea x y = .trap tt u := by rw [putDouble, h]; rfl
  refine ⟨hsb.trans (outcome_of_trap (hbyte _)), fun hal => hsh.trans ?_, fun hal => hst.trans ?_,
    fun hal he => hsd.trans ?_⟩
  · exact (whenAligned_of_aligned hal).trans (outcome_of_trap (hhalf _))
  · exact (whenAligned_of_aligned hal).trans (outcome_of_trap (hword _))
  · exact (whenEven_of_even he).trans ((whenAligned_of_aligned hal).trans (outcome_of_trap (hdouble _ _)))

theorem atomics_of_trap {lb sw : Instr} (h : resolve s asi ea .atomic = .trap tt u)
    (hlb : exec lb s = loadAndSet s rd asi ea) (hsw : exec sw s = swapRegister s rd asi ea) :
    exec lb s = .next (u.raise tt) ∧ (ea.toNat % 4 = 0 → exec sw s = .next (u.raise tt)) := by
  have hbyte : testAndSet s asi ea = .trap tt u := by rw [testAndSet, h]; rfl
  have hword (x : Word) : exchange s asi ea x = .trap tt u := by rw [exchange, h]; rfl
  exact ⟨hlb.trans (outcome_of_trap hbyte),
    fun hal => hsw.trans ((whenAligned_of_aligned hal).trans (outcome_of_trap (hword _)))⟩

end

/-- Settles O39: what the access that traps can have done, then that each sequence passes the trap on. -/
theorem faultedAccess : Obligations.FaultedAccess := by
  intro s u rd rs1 rs2 op asi tt ea eb
  refine ⟨fun a va kind h => resolve_trap_frame h, fun hoff hi a va kind ha hex => ?_,
    fun h => loads_of_trap h rfl rfl rfl rfl rfl rfl, fun h => stores_of_trap h rfl rfl rfl rfl,
    fun h => atomics_of_trap h rfl rfl, fun ha => ?_⟩
  · exact (resolve_off hoff ha hex kind).trans (memoryPlace_of_inject hi _)
  have asi_ok (k : Host.Outcome State Fault Refusal) : whenAsiAllowed s asi k = k := whenAsiAllowed_of_allowed ha
  exact ⟨fun h => loads_of_trap h (asi_ok _) (asi_ok _) (asi_ok _) (asi_ok _) (asi_ok _) (asi_ok _),
    fun h => stores_of_trap h (asi_ok _) (asi_ok _) (asi_ok _) (asi_ok _), fun h => atomics_of_trap h (asi_ok _) (asi_ok _)⟩

end Sys2Proof.Machine

namespace Sys2Proof.Machine

theorem toNat_decide (p : Prop) [Decidable p] : (decide p).toNat = if p then 1 else 0 := by
  by_cases h : p <;> simp [h]

/-! ## Descriptors and pages (spec/20_memory.md R145, R146) -/

theorem TlbEntry.ol_toNat (e : TlbEntry) : e.ol.toNat = e.word0.toNat % 4 := by
  rw [TlbEntry.ol, toNat_extract_eq, Nat.pow_zero, Nat.div_one]
  rfl

/-- The address part of the match rule, by OL. -/
theorem TlbEntry.addressMatches_iff (e : TlbEntry) (va : Word) :
    (if e.ol = 3#2 then
        e.word1.extractLsb' 12 20 == va.extractLsb' 12 20
        && (!e.word1.getLsbD 2 || e.word1.extractLsb' 10 2 == va.extractLsb' 10 2)
      else if e.ol = 2#2 then e.word1.extractLsb' 18 14 == va.extractLsb' 18 14
      else if e.ol = 1#2 then e.word1.extractLsb' 24 8 == va.extractLsb' 24 8
      else true) = true
    ↔ (e.word0.toNat % 4 = 3 → e.word1.toNat / 2 ^ 12 = va.toNat / 2 ^ 12
        ∧ (e.word1.getLsbD 2 = true → e.word1.toNat / 2 ^ 10 % 4 = va.toNat / 2 ^ 10 % 4))
      ∧ (e.word0.toNat % 4 = 2 → e.word1.toNat / 2 ^ 18 = va.toNat / 2 ^ 18)
      ∧ (e.word0.toNat % 4 = 1 → e.word1.toNat / 2 ^ 24 = va.toNat / 2 ^ 24) := by
  have htop (k m : Nat) (h : k + m = 32) : (e.word1.extractLsb' k m == va.extractLsb' k m) = true
      ↔ e.word1.toNat / 2 ^ k = va.toNat / 2 ^ k := by
    rw [beq_iff_eq, ← BitVec.toNat_inj, toNat_extract_top _ h, toNat_extract_top _ h]
  have hke : (e.word1.extractLsb' 10 2 == va.extractLsb' 10 2) = true
      ↔ e.word1.toNat / 2 ^ 10 % 4 = va.toNat / 2 ^ 10 % 4 := by
    rw [beq_iff_eq, ← BitVec.toNat_inj, toNat_extract_eq, toNat_extract_eq]
    rfl
  have hol := e.ol_toNat
  have hlt := e.ol.isLt
  obtain h | h | h | h : e.ol = 3#2 ∨ e.ol = 2#2 ∨ e.ol = 1#2 ∨ e.ol = 0#2 := by
    simp only [← BitVec.toNat_inj]
    simp
    omega
  all_goals rw [h] at hol; rw [← hol, h]
  · rw [if_pos rfl, Bool.and_eq_true, Bool.or_eq_true, htop 12 20 rfl, hke, Bool.not_eq_true', ← Bool.not_eq_true,
      ← imp_iff_not_or]
    simp
  · rw [if_neg (by decide), if_pos rfl, htop 18 14 rfl]
    simp
  · rw [if_neg (by decide), if_neg (by decide), if_pos rfl, htop 24 8 rfl]
    simp
  · rw [if_neg (by decide), if_neg (by decide), if_neg (by decide)]
    simp

theorem TlbEntry.matches_iff (e : TlbEntry) (va : Word) (ctx : BitVec 7) : e.matches va ctx = true
    ↔ e.word1.getLsbD 1 = true
      ∧ (e.word1.getLsbD 0 = true ∨ e.word1.toNat / 8 % 128 = ctx.toNat)
      ∧ (e.word0.toNat % 4 = 3 → e.word1.toNat / 2 ^ 12 = va.toNat / 2 ^ 12
        ∧ (e.word1.getLsbD 2 = true → e.word1.toNat / 2 ^ 10 % 4 = va.toNat / 2 ^ 10 % 4))
      ∧ (e.word0.toNat % 4 = 2 → e.word1.toNat / 2 ^ 18 = va.toNat / 2 ^ 18)
      ∧ (e.word0.toNat % 4 = 1 → e.word1.toNat / 2 ^ 24 = va.toNat / 2 ^ 24) := by
  rw [TlbEntry.matches, Bool.and_eq_true, Bool.and_eq_true, Bool.or_eq_true, e.addressMatches_iff va, beq_iff_eq,
    ← BitVec.toNat_inj, toNat_extract_eq, and_assoc]
  rfl

theorem pageAddress_toNat (ppn : BitVec 24) (va : Word) :
    (pageAddress ppn 3#2 va).toNat = ppn.toNat * 2 ^ 12 + va.toNat % 2 ^ 12
    ∧ (pageAddress ppn 2#2 va).toNat = ppn.toNat / 2 ^ 6 * 2 ^ 18 + va.toNat % 2 ^ 18
    ∧ (pageAddress ppn 1#2 va).toNat = ppn.toNat / 2 ^ 12 * 2 ^ 24 + va.toNat % 2 ^ 24
    ∧ (pageAddress ppn 0#2 va).toNat = ppn.toNat / 2 ^ 20 * 2 ^ 32 + va.toNat := by
  have hlow (m : Nat) : (va.extractLsb' 0 m).toNat = va.toNat % 2 ^ m := by
    rw [toNat_extract_eq, Nat.pow_zero, Nat.div_one]
  refine ⟨?_, ?_, ?_, ?_⟩
  · rw [show pageAddress ppn 3#2 va = ppn ++ va.extractLsb' 0 12 from rfl, toNat_append_eq, hlow]
  · rw [show pageAddress ppn 2#2 va = ppn.extractLsb' 6 18 ++ va.extractLsb' 0 18 from rfl, toNat_append_eq, hlow,
      toNat_extract_top ppn rfl]
  · rw [show pageAddress ppn 1#2 va = ppn.extractLsb' 12 12 ++ va.extractLsb' 0 24 from rfl, toNat_append_eq, hlow,
      toNat_extract_top ppn rfl]
  · rw [show pageAddress ppn 0#2 va = ppn.extractLsb' 20 4 ++ va from rfl, toNat_append_eq, toNat_extract_top ppn rfl]

/-! ## Fault status (R152) -/

theorem accessType_toNat (asi : Asi) (kind : AccessKind) :
    (accessType asi kind).toNat = (if kind = .store ∨ kind = .atomic then 4 else 0)
      + (if asi = 0x08#8 ∨ asi = 0x09#8 then 2 else 0) + asi.toNat % 2 := by
  have hwrites : kind.writes = decide (kind = .store ∨ kind = .atomic) := by cases kind <;> rfl
  have hcode : (asi == 0x08#8 || asi == 0x09#8) = decide (asi = 0x08#8 ∨ asi = 0x09#8) := by
    rw [Bool.decide_or]
    rfl
  have hsup : asiSupervisor asi = decide (asi.toNat % 2 = 1) := by
    rw [Bool.eq_iff_iff, decide_eq_true_iff, asiSupervisor, getLsbD_zero_eq_true_iff]
  rw [accessType, toNat_append_eq, toNat_append_eq, BitVec.toNat_ofBool, BitVec.toNat_ofBool, BitVec.toNat_ofBool, hwrites,
    hcode, hsup, toNat_decide, toNat_decide, toNat_decide]
  split <;> split <;> split <;> omega

theorem recordFault_fsr_toNat (u : State) (va : Word) (asi : Asi) (kind : AccessKind) (ft : BitVec 3) (level : BitVec 2) :
    (u.recordFault va asi kind ft level).fsr.toNat = level.toNat * 256
      + ((if kind = .store ∨ kind = .atomic then 4 else 0) + (if asi = 0x08#8 ∨ asi = 0x09#8 then 2 else 0)
        + asi.toNat % 2) * 32
      + ft.toNat * 4 + (if kind = .fetch then 0 else 2) + (if u.fsr.toNat / 4 % 8 = 0 then 0 else 1) := by
  have hvalid : (kind != .fetch).toNat * 2 = if kind = .fetch then 0 else 2 := by cases kind <;> rfl
  have hold : (u.fsr.extractLsb' 2 3 != 0#3).toNat = if u.fsr.toNat / 4 % 8 = 0 then 0 else 1 := by
    have hzero : u.fsr.extractLsb' 2 3 = 0#3 ↔ u.fsr.toNat / 4 % 8 = 0 := by
      rw [← BitVec.toNat_inj, toNat_extract_eq]
      rfl
    by_cases h : u.fsr.toNat / 4 % 8 = 0
    · rw [if_pos h, hzero.mpr h]
      rfl
    · rw [if_neg h, bne_iff_ne.mpr (mt hzero.mp h)]
      rfl
  have hfsr : (u.recordFault va asi kind ft level).fsr = 0#22 ++ level ++ accessType asi kind ++ ft
      ++ BitVec.ofBool (kind != .fetch) ++ BitVec.ofBool (u.fsr.extractLsb' 2 3 != 0#3) := rfl
  rw [hfsr, ← accessType_toNat, ← hvalid, ← hold]
  simp only [toNat_append_eq, BitVec.toNat_ofBool, BitVec.toNat_ofNat]
  omega

section
variable {s u t : State} {va : Word} {asi : Asi} {kind : AccessKind}

theorem mmuFaults_of_mmuFault {ft : BitVec 3} {level : BitVec 2} (h : translate s va asi kind = mmuFault u va asi kind ft level)
    (hfsr : u.fsr = s.fsr) (hfar : u.far = s.far) :
    MmuFaults s va asi kind ft.toNat level.toNat (u.recordFault va asi kind ft level) := by
  refine ⟨h, ?_, ?_⟩
  · rw [recordFault_fsr_toNat, hfsr]
  · rw [← hfar]
    rfl

/-! ## The permission check (R141, R150) -/

theorem usePage_of_allowed {w : Word} {level : BitVec 2} {f : State → State}
    (h : accAllows (accField w) (asiSupervisor asi) kind = true) :
    usePage u va asi kind w level f = .ok (pageAddress (ppnField (u.cfg.dropPpn w)) level va) (f u) := if_pos h

/-- A page that forbids the access: a privilege violation where the supervisor would be allowed, else a protection error. -/
theorem mmuFaults_of_denied {w : Word} {level : BitVec 2} {f : State → State}
    (htr : translate s va asi kind = usePage u va asi kind w level f)
    (h : accAllows (accField w) (asiSupervisor asi) kind = false) (hfsr : u.fsr = s.fsr) (hfar : u.far = s.far) :
    ∃ t, MmuFaults s va asi kind
        (if asiSupervisor asi = false ∧ accAllows (accField w) true kind = true then 3 else 2) level.toNat t
      ∧ t = { u with fsr := t.fsr, far := t.far } := by
  rw [usePage, if_neg (by simp [h])] at htr
  by_cases hpriv : asiSupervisor asi = false ∧ accAllows (accField w) true kind = true
  · rw [if_pos (by simp [hpriv])] at htr
    rw [if_pos hpriv]
    exact ⟨_, mmuFaults_of_mmuFault htr hfsr hfar, rfl⟩
  · rw [if_neg (by simpa using hpriv)] at htr
    rw [if_neg hpriv]
    exact ⟨_, mmuFaults_of_mmuFault htr hfsr hfar, rfl⟩

/-! ## The descriptors that match (R146, R150) -/

theorem mem_tlbHits {k : Nat} : k ∈ s.tlbHits va ↔ ∃ e, s.tlb[k]? = some e ∧ e.matches va s.ctx = true := by
  rw [State.tlbHits, List.mem_filter, List.mem_range]
  cases hk : s.tlb[k]? with
  | none => simp
  | some e => simp [(List.getElem?_eq_some_iff.mp hk).1]

theorem tlbHits_nodup (s : State) (va : Word) : (s.tlbHits va).Nodup := List.nodup_range.filter _

theorem tlbHits_eq_nil (h : ∀ e ∈ s.tlb, e.matches va s.ctx = false) : s.tlbHits va = [] := by
  refine List.eq_nil_iff_forall_not_mem.mpr fun k hk => ?_
  obtain ⟨e, he, hm⟩ := mem_tlbHits.mp hk
  exact absurd ((h e (List.mem_of_getElem? he)).symm.trans hm) (by decide)

theorem tlbHits_eq_singleton {k : Nat} {e : TlbEntry} (he : s.tlb[k]? = some e)
    (h : ∀ j e', s.tlb[j]? = some e' → (e'.matches va s.ctx = true ↔ j = k)) : s.tlbHits va = [k] := by
  refine List.perm_singleton.mp ((List.perm_ext_iff_of_nodup (tlbHits_nodup s va) (List.nodup_singleton k)).mpr fun j => ?_)
  rw [mem_tlbHits, List.mem_singleton]
  constructor
  · rintro ⟨e', he', hm⟩
    exact (h j e' he').mp hm
  · rintro rfl
    exact ⟨e, he, (h j e he).mpr rfl⟩

theorem translateMmu_of_two_hits {j k : Nat} (hne : j ≠ k) (hj : j ∈ s.tlbHits va) (hk : k ∈ s.tlbHits va) :
    translateMmu s va asi kind = .refused .multipleTlbMatch := by
  unfold translateMmu
  match hits : s.tlbHits va with
  | [] => exact absurd (hits ▸ hj) List.not_mem_nil
  | [i] =>
    rw [hits, List.mem_singleton] at hj hk
    exact absurd (hj.trans hk.symm) hne
  | _ :: _ :: _ => rfl

theorem translate_on (hm : s.cfg.mmu = .v8ref ∨ s.cfg.mmu = .v8eref) (hen : s.mmuEnable = true) :
    translate s va asi kind = translateMmu s va asi kind := by
  unfold translate
  rcases hm with h | h <;> rw [h] <;> exact if_pos hen

theorem hardwareWalk_iff (c : Config) : c.hardwareWalk = true ↔ c.mmu = .v8ref ∨ c.tableWalk ≠ .software := by
  rw [Config.hardwareWalk, Bool.or_eq_true, beq_iff_eq, bne_iff_ne]

theorem marked_eq (w : Word) (kind : AccessKind) : marked w kind = setReferenced w kind.writes := by
  cases kind <;> rfl

end

end Sys2Proof.Machine

namespace Sys2Proof.Machine

section
variable {s u : State} {va : Word} {asi : Asi} {kind : AccessKind}

/-! ## A page that the TLB holds (spec/20_memory.md R140, R150) -/

theorem translateMmu_of_hit {k : Nat} {e : TlbEntry} (hits : s.tlbHits va = [k]) (he : s.tlb[k]? = some e) :
    translateMmu s va asi kind = usePage s va asi kind e.word0 e.ol fun t =>
      { t.touchHit va e kind.writes with tlb := t.tlb.set k { e with word0 := setReferenced e.word0 kind.writes } } := by
  simp only [translateMmu, hits, he]

theorem touchHit_eq (s : State) (va : Word) (e : TlbEntry) (w : Bool) :
    s.touchHit va e w = { s with mem := (s.touchHit va e w).mem } := by
  unfold State.touchHit
  split
  · split <;> rfl
  · rfl

theorem touchHit_of_done {e : TlbEntry} {w : Bool} (h : ¬ s.cfg.hardwareWalk = true ∨ setReferenced e.word0 w = e.word0) :
    s.touchHit va e w = s := by
  refine if_neg fun hyes => ?_
  rw [Bool.and_eq_true, bne_iff_ne] at hyes
  exact h.elim (fun hno => hno hyes.1) hyes.2

theorem touchHit_of_walk {e : TlbEntry} {w : Bool} (hw : s.cfg.hardwareWalk = true) (hne : setReferenced e.word0 w ≠ e.word0)
    {addr : Nat} {pte : Word} {level : BitVec 2} {ke : Bool} (hwalk : walk s va s.cfg.v8e = .entry addr pte level ke) :
    s.touchHit va e w = s.touchPte addr w := by
  rw [State.touchHit, if_pos (by simp [hw, hne]), hwalk]

/-- The entry that the walk found, after R and M are set in it. -/
theorem touchPte_spec (hinv : Inv s) {addr : Nat} {pte : Word} {level : BitVec 2} {ke : Bool}
    (hwalk : walk s va s.cfg.v8e = .entry addr pte level ke) (hmem : u.mem = s.mem) (hcfg : u.cfg = s.cfg)
    (kind : AccessKind) : (u.touchPte addr kind.writes).wordAt addr = marked pte kind
      ∧ MemoryOutside s (u.touchPte addr kind.writes) addr 4 := by
  obtain ⟨hex, rfl⟩ := walkFrom_entry hwalk
  have hm : Memory.wf u.mem = true := hmem ▸ hinv.memory
  have hp : u.cfg.paBits ≤ 36 := hcfg ▸ hinv.paBits
  have hword : u.wordAt addr = s.wordAt addr := by rw [State.wordAt, State.wordAt, byteAt_congr hmem, byteAt_congr hmem,
    byteAt_congr hmem, byteAt_congr hmem]
  rw [marked_eq, ← hword]
  exact ⟨wordAt_touchPte hm hp (hcfg ▸ hex) _,
    fun a ha => (touchPte_outside hm hp (hcfg ▸ hex) _ a ha).trans (byteAt_congr hmem a)⟩

theorem translate_of_hit_allowed (htr : translate s va asi kind = translateMmu s va asi kind) {k : Nat} {e : TlbEntry}
    (hits : s.tlbHits va = [k]) (he : s.tlb[k]? = some e) (hacc : accAllows (accField e.word0) (asiSupervisor asi) kind = true) :
    ∃ t, translate s va asi kind = .ok (pageAddress (ppnField (s.cfg.dropPpn e.word0)) e.ol va) t
      ∧ t = { s with tlb := s.tlb.set k { e with word0 := marked e.word0 kind }, mem := t.mem }
      ∧ (¬ s.cfg.hardwareWalk = true ∨ marked e.word0 kind = e.word0 → t.mem = s.mem)
      ∧ (Inv s → s.cfg.hardwareWalk = true → marked e.word0 kind ≠ e.word0 → ∀ addr pte level ke,
        walk s va s.cfg.v8e = .entry addr pte level ke → t.wordAt addr = marked pte kind ∧ MemoryOutside s t addr 4) := by
  refine ⟨_, htr.trans ((translateMmu_of_hit hits he).trans (usePage_of_allowed hacc)), ?_, fun hdone => ?_,
    fun hinv hw hne addr pte level ke hwalk => ?_⟩
  · rw [marked_eq, touchHit_eq]
  · rw [marked_eq] at hdone
    rw [touchHit_of_done hdone]
  · rw [marked_eq] at hne
    rw [touchHit_of_walk hw hne hwalk]
    exact touchPte_spec hinv hwalk rfl rfl kind

/-! ## A page that the walk finds (R147) -/

theorem translateMmu_of_misaligned (hits : s.tlbHits va = []) (hw : s.cfg.hardwareWalk = true)
    (hwalk : walk s va s.cfg.v8e = .misaligned) : translateMmu s va asi kind = .refused .misalignedTable := by
  simp only [translateMmu, hits, hw, hwalk, if_true]

theorem translateMmu_of_fault (hits : s.tlbHits va = []) (hw : s.cfg.hardwareWalk = true) {ft : BitVec 3} {level : BitVec 2}
    (hwalk : walk s va s.cfg.v8e = .fault ft level) : translateMmu s va asi kind = mmuFault s va asi kind ft level := by
  simp only [translateMmu, hits, hw, hwalk, if_true]

theorem translateMmu_of_entry (hits : s.tlbHits va = []) (hw : s.cfg.hardwareWalk = true) {addr : Nat} {pte : Word}
    {level : BitVec 2} {ke : Bool} (hwalk : walk s va s.cfg.v8e = .entry addr pte level ke) :
    translateMmu s va asi kind = usePage (s.enterTlb (entryOf s va pte level ke)) va asi kind pte level fun t =>
      { t.touchPte addr kind.writes with
        tlb := t.tlb.map fun e => if e.matches va t.ctx then { e with word0 := setReferenced e.word0 kind.writes } else e } := by
  simp only [translateMmu, hits, hw, hwalk, if_true]

theorem translateMmu_of_miss (hits : s.tlbHits va = []) (hw : ¬ s.cfg.hardwareWalk = true) :
    translateMmu s va asi kind = mmuMiss s va kind := by
  simp only [translateMmu, hits]
  exact if_neg hw

/-- Word 0 of the descriptor that a walk enters. -/
def walkedWord0 (c : Config) (pte : Word) (level : BitVec 2) : Word :=
  c.dropPpn (BitVec.ofNat 32 (pte.toNat / 4 * 4 + level.toNat))

/-- Word 1 of the descriptor that a walk enters. -/
def walkedWord1 (ctx : BitVec 7) (va pte : Word) (ke : Bool) : Word :=
  BitVec.ofNat 32 (va.toNat / 2 ^ 10 * 2 ^ 10 + ctx.toNat * 8 + ke.toNat * 4 + 2 + pte.toNat % 2)

theorem walkedWord1_toNat (ctx : BitVec 7) (va pte : Word) (ke : Bool) : (walkedWord1 ctx va pte ke).toNat
    = va.toNat / 2 ^ 10 * 2 ^ 10 + ctx.toNat * 8 + ke.toNat * 4 + 2 + pte.toNat % 2 := by
  have hctx := ctx.isLt
  have hva := va.isLt
  have hke := Bool.toNat_le ke
  rw [walkedWord1, BitVec.toNat_ofNat]
  omega

theorem entryOf_eq (s : State) (va pte : Word) (level : BitVec 2) (ke : Bool) :
    entryOf s va pte level ke = ⟨walkedWord0 s.cfg pte level, walkedWord1 s.ctx va pte ke, false⟩ := by
  have h0 : pte.extractLsb' 2 30 ++ level = BitVec.ofNat 32 (pte.toNat / 4 * 4 + level.toNat) := by
    have hpte := pte.isLt
    have hlevel := level.isLt
    rw [← BitVec.toNat_inj, toNat_append_eq, toNat_extract_top pte rfl, BitVec.toNat_ofNat]
    omega
  have h1 : va.extractLsb' 10 22 ++ s.ctx ++ BitVec.ofBool ke ++ 1#1 ++ pte.extractLsb' 0 1 = walkedWord1 s.ctx va pte ke := by
    rw [← BitVec.toNat_inj, walkedWord1_toNat]
    simp only [toNat_append_eq, toNat_extract_top va (show 10 + 22 = 32 from rfl), toNat_extract_eq, BitVec.toNat_ofBool,
      BitVec.toNat_ofNat]
    omega
  rw [entryOf, h0, h1]
  rfl

/-- The descriptor that a walk for `va` enters is one of `va`. -/
theorem walked_matches (ctx : BitVec 7) (va pte w : Word) (ke : Bool) :
    TlbEntry.matches ⟨w, walkedWord1 ctx va pte ke, false⟩ va ctx = true := by
  have hctx := ctx.isLt
  have hke := Bool.toNat_le ke
  rw [TlbEntry.matches_iff]
  simp only [BitVec.getLsbD, Nat.testBit_eq_decide_div_mod_eq, decide_eq_true_eq, walkedWord1_toNat]
  omega

/-- What entering a descriptor that then holds `x` makes of the TLB. -/
def Entered (s t : State) (x : TlbEntry) : Prop :=
  ((∀ e ∈ s.tlb, e.lb = true) → t.tlb = s.tlb)
  ∧ ((∃ e ∈ s.tlb, e.lb = false) → ∃ k e, s.tlb[k]? = some e ∧ e.lb = false ∧ t.tlb = s.tlb.set k x)

theorem entered_enterTlb {t : State} {f : TlbEntry → TlbEntry} (hf : ∀ e ∈ s.tlb, f e = e) (x : TlbEntry)
    (ht : t.tlb = (s.enterTlb x).tlb.map f) : Entered s t (f x) := by
  have hmap : s.tlb.map f = s.tlb := (List.map_congr_left hf).trans (List.map_id s.tlb)
  rcases s.enterTlb_spec x with ⟨hall, heq⟩ | ⟨k, e, he, hlb, heq⟩
  · rw [heq, hmap] at ht
    refine ⟨fun _ => ht, fun ⟨e, he, hlb⟩ => absurd ((hall e he).symm.trans hlb) (by decide)⟩
  · rw [heq, List.map_set, hmap] at ht
    refine ⟨fun hall => absurd ((hall e (List.mem_of_getElem? he)).symm.trans hlb) (by decide), fun _ => ⟨k, e, he, hlb, ht⟩⟩

theorem enterTlb_congr (s : State) (x : TlbEntry) : (s.enterTlb x).cfg = s.cfg ∧ (s.enterTlb x).ctx = s.ctx
    ∧ (s.enterTlb x).fsr = s.fsr ∧ (s.enterTlb x).far = s.far
    ∧ s.enterTlb x = { s with tlb := (s.enterTlb x).tlb, freeCount := (s.enterTlb x).freeCount } := by
  rcases s.enterTlb_spec x with ⟨-, h⟩ | ⟨_, _, -, -, h⟩ <;> rw [h] <;> exact ⟨rfl, rfl, rfl, rfl, rfl⟩

section
variable (htr : translate s va asi kind = translateMmu s va asi kind) (hnone : ∀ e ∈ s.tlb, e.matches va s.ctx = false)
  (hw : s.cfg.hardwareWalk = true) {addr : Nat} {pte : Word} {level : BitVec 2} {ke : Bool}
  (hwalk : walk s va s.cfg.v8e = .entry addr pte level ke)
include htr hnone hw hwalk

theorem translate_of_entry_allowed (hacc : accAllows (accField pte) (asiSupervisor asi) kind = true) :
    ∃ t, translate s va asi kind = .ok (pageAddress (ppnField (s.cfg.dropPpn pte)) level va) t
      ∧ OnlyTranslation s t
      ∧ Entered s t ⟨marked (walkedWord0 s.cfg pte level) kind, walkedWord1 s.ctx va pte ke, false⟩
      ∧ (Inv s → t.wordAt addr = marked pte kind ∧ MemoryOutside s t addr 4) := by
  have heq := htr.trans ((translateMmu_of_entry (tlbHits_eq_nil hnone) hw hwalk).trans (usePage_of_allowed hacc))
  obtain ⟨hcfg, hctx, -, -, -⟩ := enterTlb_congr s (entryOf s va pte level ke)
  rw [hcfg] at heq
  refine ⟨_, heq, (translate_ok heq).1, ?_, fun hinv => ?_⟩
  · have hentered := entered_enterTlb (s := s) (x := entryOf s va pte level ke)
      (f := fun e => if e.matches va s.ctx then { e with word0 := setReferenced e.word0 kind.writes } else e)
      (t := { (s.enterTlb (entryOf s va pte level ke)).touchPte addr kind.writes with
        tlb := (s.enterTlb (entryOf s va pte level ke)).tlb.map fun e =>
          if e.matches va (s.enterTlb (entryOf s va pte level ke)).ctx then
            { e with word0 := setReferenced e.word0 kind.writes } else e })
      (fun e he => if_neg (Bool.eq_false_iff.mp (hnone e he))) (by rw [hctx])
    have hmatch : (entryOf s va pte level ke).matches va s.ctx = true := entryOf_eq s va pte level ke ▸ walked_matches ..
    rw [if_pos hmatch] at hentered
    rw [marked_eq]
    exact (congrArg (fun e : TlbEntry => Entered s _ { e with word0 := setReferenced e.word0 kind.writes })
      (entryOf_eq s va pte level ke)).mp hentered
  · exact touchPte_spec hinv hwalk (enterTlb_mem s _) hcfg kind

theorem translate_of_entry_denied (hacc : accAllows (accField pte) (asiSupervisor asi) kind = false) :
    ∃ t, MmuFaults s va asi kind
        (if asiSupervisor asi = false ∧ accAllows (accField pte) true kind = true then 3 else 2) level.toNat t
      ∧ t = { s with fsr := t.fsr, far := t.far, tlb := t.tlb, freeCount := t.freeCount }
      ∧ Entered s t ⟨walkedWord0 s.cfg pte level, walkedWord1 s.ctx va pte ke, false⟩ := by
  obtain ⟨-, -, hfsr, hfar, hframe⟩ := enterTlb_congr s (entryOf s va pte level ke)
  obtain ⟨t, hfaults, ht⟩ := mmuFaults_of_denied (htr.trans (translateMmu_of_entry (tlbHits_eq_nil hnone) hw hwalk)) hacc
    hfsr hfar
  refine ⟨t, hfaults, ?_, ?_⟩
  · rw [ht, hframe]
  · have htlb : t.tlb = (s.enterTlb (entryOf s va pte level ke)).tlb := by rw [ht]
    rw [← entryOf_eq]
    exact entered_enterTlb (f := id) (fun _ _ => rfl) _ (htlb.trans (List.map_id _).symm)

end

end

/-- Settles O44: the match rule, then the translation by the number of descriptors that match and the end of the walk. -/
theorem translatedAccess : Obligations.TranslatedAccess := by
  constructor
  · intro e va ctx ppn
    exact ⟨e.matches_iff va ctx, e.ol_toNat, pageAddress_toNat ppn va⟩
  · intro s va asi kind hm hen
    have htr : translate s va asi kind = translateMmu s va asi kind := translate_on hm hen
    have hwalks := hardwareWalk_iff s.cfg
    dsimp only
    rw [← hwalks]
    refine ⟨fun k e he honly => ⟨translate_of_hit_allowed htr (tlbHits_eq_singleton he honly) he, fun hacc => ?_⟩,
      fun j k e e' hne hj hk hmj hmk => ?_, fun hnone => ⟨fun hno => ?_, fun hw => ⟨fun hwalk => ?_, fun f level hwalk => ?_,
        fun addr pte level ke hwalk => ⟨translate_of_entry_allowed htr hnone hw hwalk,
          translate_of_entry_denied htr hnone hw hwalk⟩⟩⟩⟩
    · exact mmuFaults_of_denied (htr.trans (translateMmu_of_hit (tlbHits_eq_singleton he honly) he)) hacc rfl rfl
    · exact htr.trans (translateMmu_of_two_hits hne (mem_tlbHits.mpr ⟨e, hj, hmj⟩) (mem_tlbHits.mpr ⟨e', hk, hmk⟩))
    · exact htr.trans (translateMmu_of_miss (tlbHits_eq_nil hnone) hno)
    · exact htr.trans (translateMmu_of_misaligned (tlbHits_eq_nil hnone) hw hwalk)
    · exact ⟨_, mmuFaults_of_mmuFault (htr.trans (translateMmu_of_fault (tlbHits_eq_nil hnone) hw hwalk)) rfl rfl, rfl⟩

end Sys2Proof.Machine

namespace Sys2Proof.Machine

/-! ## Masks bit by bit -/

theorem getLsbD_lowMask (n k : Nat) : (lowMask n).getLsbD k = decide (k < 32 ∧ k < n) := by
  rw [lowMask, BitVec.getLsbD_ofNat, Nat.testBit_two_pow_sub_one, Bool.decide_and]

theorem and_lowMask_toNat_any (x : Word) (n : Nat) : (x &&& lowMask n).toNat = x.toNat % 2 ^ n := by
  rcases Nat.le_total n 32 with h | h
  · exact and_lowMask_toNat h x
  · have hall : x &&& lowMask n = x := by
      refine BitVec.eq_of_getLsbD_eq fun i hi => ?_
      rw [BitVec.getLsbD_and, getLsbD_lowMask, decide_eq_true ⟨hi, hi.trans_le h⟩, Bool.and_true]
    rw [hall, Nat.mod_eq_of_lt (x.isLt.trans_le (Nat.pow_le_pow_right (by decide) h))]

theorem getLsbD_dropPpn (c : Config) (w : Word) (k : Nat) :
    (c.dropPpn w).getLsbD k = (w.getLsbD k && decide (k < 8 ∨ k + 4 < c.paBits)) := by
  have hbyte : (0xFF#32).getLsbD k = decide (k < 8) := by
    rw [show (0xFF#32) = lowMask 8 from rfl, getLsbD_lowMask, decide_eq_decide]
    omega
  rw [Config.dropPpn, BitVec.getLsbD_and, BitVec.getLsbD_or, getLsbD_lowMask, hbyte, ← Bool.decide_or]
  by_cases hk : k < 32
  · congr 1
    rw [decide_eq_decide]
    omega
  · rw [BitVec.getLsbD_of_ge w k (by omega), Bool.false_and, Bool.false_and]

theorem getLsbD_dropContext (c : Config) (w : Word) (k : Nat) :
    (c.dropContext w).getLsbD k = (w.getLsbD k && !decide (3 + c.ctxBits ≤ k ∧ k ≤ 9)) := by
  by_cases hk : k < 32
  · rw [Config.dropContext, BitVec.getLsbD_and, BitVec.getLsbD_not, BitVec.getLsbD_shiftLeft, BitVec.getLsbD_and,
      BitVec.getLsbD_not, getLsbD_lowMask, getLsbD_lowMask, Bool.eq_iff_iff]
    simp only [Bool.and_eq_true, Bool.not_eq_true', Bool.and_eq_false_iff, decide_eq_true_eq, decide_eq_false_iff_not,
      Bool.not_eq_false']
    refine and_congr_right fun _ => ?_
    omega
  · rw [BitVec.getLsbD_of_ge _ k (by omega), BitVec.getLsbD_of_ge w k (by omega), Bool.false_and]

/-! ## Loads and stores of a register (spec/20_memory.md R122, R123; log 16) -/

section
variable {s t u : State} {asi : Asi} {ea : Word} {r : Register} {rd : RegNum}

theorem resolve_of_register (hm : isMemoryAsi asi = false) (hb : isBypassAsi s.cfg asi = false)
    (hr : registerAt s.cfg asi ea = some r) (kind : AccessKind) : resolve s asi ea kind = .ok (.register r) s := by
  rw [resolve, if_neg (Bool.eq_false_iff.mp hm), if_neg (Bool.eq_false_iff.mp hb), hr]

theorem loadDouble_of_register (hres : resolve s asi ea .load = .ok (.register r) s) (hr : ∀ n, r ≠ .timer n 0) :
    loadDouble s asi ea = .refused .registerWidth := by
  rw [loadDouble, hres, Access.bind_ok]
  split
  · simp_all
  · rename_i n hn
    injection hn with hn
    exact absurd hn (hr n)
  · rfl

theorem putDouble_of_register (hres : resolve s asi ea .store = .ok (.register r) s) (hr : ∀ n, r ≠ .timer n 0) (x y : Word) :
    putDouble s asi ea x y = .refused .registerWidth := by
  rw [putDouble, hres, Access.bind_ok]
  split
  · simp_all
  · rename_i n hn
    injection hn with hn
    exact absurd hn (hr n)
  · rfl

/-! The sequences at an address of a register. -/

theorem loadToRegister_of_register (hres : resolve s asi ea .load = .ok (.register r) s) (hal : ea.toNat % 4 = 0) {v : Word}
    (hread : readRegister s r = .ok v t) : loadToRegister s rd asi ea = .next (t.setReg rd v).advance := by
  have hload : loadWord s asi ea = .ok v t := by rw [loadWord, hres]; exact hread
  rw [loadToRegister, whenAligned_of_aligned hal, hload, Access.outcome_ok]

theorem storeRegister_of_register (hres : resolve s asi ea .store = .ok (.register r) s) (hal : ea.toNat % 4 = 0)
    (hwrite : writeRegister s r (s.reg rd) = .ok () t) : storeRegister s rd asi ea = .next t.advance := by
  have hput : putWord s asi ea (s.reg rd) = .ok () t := by rw [putWord, hres]; exact hwrite
  rw [storeRegister, whenAligned_of_aligned hal, hput, Access.outcome_ok]

theorem loadBytes_refused (hres : resolve s asi ea .load = .ok (.register r) s) :
    loadSignedByte s rd asi ea = .refused .registerWidth ∧ loadUnsignedByte s rd asi ea = .refused .registerWidth := by
  have hbyte : loadByte s asi ea = .refused .registerWidth := by rw [loadByte, hres]; rfl
  rw [loadSignedByte, loadUnsignedByte, hbyte]
  exact ⟨rfl, rfl⟩

theorem loadHalves_refused (hres : resolve s asi ea .load = .ok (.register r) s) (hal : ea.toNat % 4 = 0) :
    loadSignedHalf s rd asi ea = .refused .registerWidth ∧ loadUnsignedHalf s rd asi ea = .refused .registerWidth := by
  have hal2 : ea.toNat % 2 = 0 := by omega
  have hhalf : loadHalf s asi ea = .refused .registerWidth := by rw [loadHalf, hres]; rfl
  rw [loadSignedHalf, loadUnsignedHalf, whenAligned_of_aligned hal2, whenAligned_of_aligned hal2, hhalf]
  exact ⟨rfl, rfl⟩

theorem storeNarrow_refused (hres : resolve s asi ea .store = .ok (.register r) s) (hal : ea.toNat % 4 = 0) :
    storeLowByte s rd asi ea = .refused .registerWidth ∧ storeLowHalf s rd asi ea = .refused .registerWidth := by
  have hal2 : ea.toNat % 2 = 0 := by omega
  rw [storeLowByte, storeLowHalf, whenAligned_of_aligned hal2, putByte, putHalf, hres]
  exact ⟨rfl, rfl⟩

theorem atomics_refused (hres : resolve s asi ea .atomic = .ok (.register r) s) (hal : ea.toNat % 4 = 0) :
    loadAndSet s rd asi ea = .refused .registerWidth ∧ swapRegister s rd asi ea = .refused .registerWidth := by
  rw [loadAndSet, swapRegister, whenAligned_of_aligned hal, testAndSet, exchange, hres]
  exact ⟨rfl, rfl⟩

theorem loadToPair_of_timer {n : Nat} (hres : resolve s asi ea .load = .ok (.register (.timer n 0)) s) (hal : ea.toNat % 8 = 0)
    (he : rd.toNat % 2 = 0) {x y : Word} (hx : readRegister s (.timer n 0) = .ok x u)
    (hy : readRegister u (.timer n 4) = .ok y t) :
    loadToPair s rd asi ea = .next ((t.setReg rd x).setReg (rd + 1#5) y).advance := by
  have hload : loadDouble s asi ea = .ok (x, y) t := by
    rw [loadDouble, hres, Access.bind_ok]
    show (readRegister s (.timer n 0)).bind _ = _
    rw [hx, Access.bind_ok, hy, Access.bind_ok]
  rw [loadToPair, whenEven_of_even he, whenAligned_of_aligned hal, hload, Access.outcome_ok]

theorem storePair_of_timer {n : Nat} (hres : resolve s asi ea .store = .ok (.register (.timer n 0)) s) (hal : ea.toNat % 8 = 0)
    (he : rd.toNat % 2 = 0) (hx : writeRegister s (.timer n 0) (s.reg rd) = .ok () u)
    (hy : writeRegister u (.timer n 4) (s.reg (rd + 1#5)) = .ok () t) : storePair s rd asi ea = .next t.advance := by
  have hput : putDouble s asi ea (s.reg rd) (s.reg (rd + 1#5)) = .ok () t := by
    rw [putDouble, hres, Access.bind_ok]
    show (writeRegister s (.timer n 0) _).bind _ = _
    rw [hx, Access.bind_ok, hy]
  rw [storePair, whenEven_of_even he, whenAligned_of_aligned hal, hput, Access.outcome_ok]

theorem loadToPair_refused (hres : resolve s asi ea .load = .ok (.register r) s) (hr : ∀ n, r ≠ .timer n 0)
    (hal : ea.toNat % 8 = 0) (he : rd.toNat % 2 = 0) : loadToPair s rd asi ea = .refused .registerWidth := by
  rw [loadToPair, whenEven_of_even he, whenAligned_of_aligned hal, loadDouble_of_register hres hr, Access.outcome_refused]

theorem storePair_refused (hres : resolve s asi ea .store = .ok (.register r) s) (hr : ∀ n, r ≠ .timer n 0)
    (hal : ea.toNat % 8 = 0) (he : rd.toNat % 2 = 0) : storePair s rd asi ea = .refused .registerWidth := by
  rw [storePair, whenEven_of_even he, whenAligned_of_aligned hal, putDouble_of_register hres hr, Access.outcome_refused]

end

/-! ## The MMU's registers (R134, R152; log 21) -/

section
variable {c : Config} {s : State} {ea : Word}

theorem registerAt_of_mmu {asi : Asi} {r : Register} (h : mmuRegisterAt c asi ea = some r) : registerAt c asi ea = some r := by
  rw [registerAt, h, Option.some_or]

theorem registerAt_mmuAsi (hm : c.mmu = .v8ref ∨ c.mmu = .v8eref) : registerAt c 0x04#8 ea = some (.mmu ea) := by
  refine registerAt_of_mmu ?_
  rw [mmuRegisterAt]
  rcases hm with h | h <;> rw [h] <;> exact if_pos rfl

/-- Address bits 11:8 select the register. -/
theorem mmuSelector_eq {n : BitVec 4} (h : ea.toNat / 256 % 16 = n.toNat) : ea.extractLsb' 8 4 = n := by
  rw [← BitVec.toNat_inj, toNat_extract_eq]
  exact h

theorem control_toNat (a b : BitVec 4) (nf en : Bool) :
    (a ++ b ++ 0#22 ++ BitVec.ofBool nf ++ BitVec.ofBool en).toNat
      = a.toNat * 2 ^ 28 + b.toNat * 2 ^ 24 + 2 * nf.toNat + en.toNat := by
  simp only [toNat_append_eq, BitVec.toNat_ofBool, BitVec.toNat_ofNat]
  omega

theorem contextTable_eq_ofNat (p : BitVec 30) : p ++ 0#2 = BitVec.ofNat 32 (4 * p.toNat) := by
  have hp := p.isLt
  rw [← BitVec.toNat_inj, toNat_append_eq, BitVec.toNat_ofNat, BitVec.toNat_ofNat]
  omega

theorem extract_eq_ofNat (x : Word) (k n : Nat) : x.extractLsb' k n = BitVec.ofNat n (x.toNat / 2 ^ k) := by
  rw [← BitVec.toNat_inj, toNat_extract_eq, BitVec.toNat_ofNat]

theorem contextWritten_eq (x : Word) (n : Nat) : (x &&& lowMask n).extractLsb' 0 7 = BitVec.ofNat 7 (x.toNat % 2 ^ n) := by
  rw [extract_eq_ofNat, and_lowMask_toNat_any, Nat.pow_zero, Nat.div_one]

theorem mmuRegisters (s : State) (ea x : Word) (hm : s.cfg.mmu = .v8ref ∨ s.cfg.mmu = .v8eref) :
    registerAt s.cfg 0x04#8 ea = some (.mmu ea)
    ∧ (ea.toNat / 256 % 16 = 0 →
      (∃ v, readRegister s (.mmu ea) = .ok v s ∧ v.toNat = s.cfg.mmuImpl.toNat * 2 ^ 28 + s.cfg.mmuVer.toNat * 2 ^ 24
        + 2 * s.mmuNoFault.toNat + s.mmuEnable.toNat)
      ∧ writeRegister s (.mmu ea) x = .ok () { s with mmuEnable := x.getLsbD 0, mmuNoFault := x.getLsbD 1 })
    ∧ (ea.toNat / 256 % 16 = 1 →
      readRegister s (.mmu ea) = .ok (BitVec.ofNat 32 (4 * s.ctp.toNat)) s
      ∧ writeRegister s (.mmu ea) x = .ok () { s with ctp := BitVec.ofNat 30 (x.toNat / 4) })
    ∧ (ea.toNat / 256 % 16 = 2 →
      readRegister s (.mmu ea) = .ok (BitVec.ofNat 32 s.ctx.toNat) s
      ∧ writeRegister s (.mmu ea) x = .ok () { s with ctx := BitVec.ofNat 7 (x.toNat % 2 ^ s.cfg.ctxBits) })
    ∧ (ea.toNat / 256 % 16 = 3 →
      readRegister s (.mmu ea) = .ok s.fsr { s with fsr := 0#32 } ∧ writeRegister s (.mmu ea) x = .ok () s)
    ∧ (ea.toNat / 256 % 16 = 4 →
      readRegister s (.mmu ea) = .ok s.far s ∧ writeRegister s (.mmu ea) x = .ok () s) := by
  simp only [readRegister, writeRegister, readMmuRegister, writeMmuRegister]
  refine ⟨registerAt_mmuAsi hm, fun h => ?_, fun h => ?_, fun h => ?_, fun h => ?_, fun h => ?_⟩
  · rw [mmuSelector_eq (n := 0#4) h]
    exact ⟨⟨_, rfl, control_toNat ..⟩, rfl⟩
  · have hctp : x.extractLsb' 2 30 = BitVec.ofNat 30 (x.toNat / 4) := extract_eq_ofNat x 2 30
    rw [mmuSelector_eq (n := 1#4) h, ← contextTable_eq_ofNat, ← hctp]
    exact ⟨rfl, rfl⟩
  · have hctx : s.ctx.zeroExtend 32 = BitVec.ofNat 32 s.ctx.toNat := (BitVec.ofNat_toNat ..).symm
    rw [mmuSelector_eq (n := 2#4) h, ← contextWritten_eq, ← hctx]
    exact ⟨rfl, rfl⟩
  · rw [mmuSelector_eq (n := 3#4) h]
    exact ⟨rfl, rfl⟩
  · rw [mmuSelector_eq (n := 4#4) h]
    exact ⟨rfl, rfl⟩

/-! ## Page descriptors (R148, R149; U18, U24) -/

theorem descriptorRegisters (s : State) (n : Nat) (e : TlbEntry) (x : Word) (he : s.tlb[n]? = some e) :
    readRegister s (.descriptor n 0) = .ok e.word0 s
    ∧ readRegister s (.descriptor n 1) = .ok e.word1 s
    ∧ readRegister s (.descriptor n 2) = .ok (BitVec.ofNat 32 (e.lb.toNat * 2 ^ s.cfg.tlbLbBit)) s
    ∧ (∃ v, writeRegister s (.descriptor n 0) x = .ok () { s with tlb := s.tlb.set n { e with word0 := v } }
      ∧ ∀ k, v.getLsbD k = (x.getLsbD k && decide (k < 8 ∨ k + 4 < s.cfg.paBits)))
    ∧ (∃ v, writeRegister s (.descriptor n 1) x = .ok () { s with tlb := s.tlb.set n { e with word1 := v } }
      ∧ ∀ k, v.getLsbD k = (x.getLsbD k && !decide (3 + s.cfg.ctxBits ≤ k ∧ k ≤ 9)))
    ∧ writeRegister s (.descriptor n 2) x
      = .ok () { s with tlb := s.tlb.set n { e with lb := x.getLsbD s.cfg.tlbLbBit } } := by
  simp only [readRegister, writeRegister, readDescriptor, writeDescriptor, he, true_and, and_true]
  refine ⟨?_, ⟨_, rfl, getLsbD_dropPpn s.cfg x⟩, ⟨_, rfl, getLsbD_dropContext s.cfg x⟩⟩
  rw [shiftLeft_eq_ofNat, bit_toNat]

theorem disjointAreas_head {a b : Area} {l : List Area} (h : disjointAreas (a :: b :: l) = true) : a.disjoint b = true := by
  rw [disjointAreas, Bool.and_eq_true, List.all_cons, Bool.and_eq_true] at h
  exact h.1.1

theorem tlbAsi_ne_mmuAsi (hwf : c.wf = true) (hm : c.mmu = .v8eref) (hfit : c.tlbBase + 4096 ≤ 2 ^ 32) : c.tlbAsi ≠ 0x04#8 := by
  have hareas : ∃ rest, c.areas = ⟨0x04#8, 0, 2 ^ 32⟩ :: ⟨c.tlbAsi, c.tlbBase, 4096⟩ :: rest :=
    ⟨_, by rw [Config.areas, if_neg (by simp [hm]), if_pos hm]; rfl⟩
  obtain ⟨rest, hrest⟩ := hareas
  have hdisjoint : disjointAreas c.areas = true := by
    simp only [Config.wf, Config.deviceWf, Bool.and_eq_true] at hwf
    tauto
  have hpair := disjointAreas_head (hrest ▸ hdisjoint)
  simp only [Area.disjoint, Bool.or_eq_true, bne_iff_ne, decide_eq_true_eq] at hpair
  rcases hpair with (hne | hlow) | hhigh
  · exact hne.symm
  · omega
  · omega

theorem nTlb_le (hwf : c.wf = true) : c.nTlb ≤ 256 := by
  simp only [Config.wf, Config.deviceWf, Bool.and_eq_true, decide_eq_true_eq] at hwf
  omega

theorem registerAt_descriptor (hwf : c.wf = true) (hm : c.mmu = .v8eref) {n k : Nat} (hn : n < c.nTlb) (hk : k < 4)
    (hfit : c.tlbBase + 4096 ≤ 2 ^ 32) :
    registerAt c c.tlbAsi (BitVec.ofNat 32 (c.tlbBase + 16 * n + 4 * k)) = some (.descriptor n k) := by
  have hle := nTlb_le hwf
  have hea : (BitVec.ofNat 32 (c.tlbBase + 16 * n + 4 * k)).toNat = c.tlbBase + 16 * n + 4 * k := by
    rw [BitVec.toNat_ofNat]
    omega
  have harea : findArea (c.tlbBase + 16 * n + 4 * k) [(c.tlbBase, 4096)] = some (0, 16 * n + 4 * k) := by
    rw [findArea, if_pos (by omega)]
    congr 2
    omega
  refine registerAt_of_mmu ?_
  simp only [mmuRegisterAt, hm, hea, harea]
  rw [if_neg (tlbAsi_ne_mmuAsi hwf hm hfit), if_true, if_pos (by omega)]
  congr 2 <;> omega

/-! ## The word of an input handler (spec/60_exceptions.md R566) -/

theorem Handler.word_toNat (h : Handler) :
    h.word.toNat = 16 * h.inv.toNat + 4 * h.width.toNat + 2 * h.en.toNat + h.buf.toNat := by
  rw [Handler.word]
  simp only [toNat_append_eq, BitVec.toNat_ofBool, BitVec.toNat_ofNat]
  omega

theorem handlerRegister (s : State) (slot : Nat) (h : Handler) (x : Word) (hh : s.handlers[handlerIndex slot]? = some h) :
    (∃ v, readRegister s (.handler slot) = .ok v s
      ∧ v.toNat = 16 * h.inv.toNat + 4 * h.width.toNat + 2 * h.en.toNat + h.buf.toNat)
    ∧ writeRegister s (.handler slot) x = .ok () { s with
        handlers := s.handlers.set (handlerIndex slot) { h with
          inv := x.getLsbD 4, width := BitVec.ofNat 2 (x.toNat / 4), en := x.getLsbD 1, buf := x.getLsbD 0 } } := by
  simp only [readRegister, writeRegister, hh]
  refine ⟨⟨_, rfl, h.word_toNat⟩, ?_⟩
  rw [Handler.store, extract_eq_ofNat]
  rfl

end

/-- Settles O40. -/
theorem registerAccess : Obligations.RegisterAccess := by
  refine ⟨?_, mmuRegisters, descriptorRegisters, fun s n k hwf hm hn hk hfit => registerAt_descriptor hwf hm hn hk hfit,
    handlerRegister⟩
  intro s t rd rs1 asi rs2 r ha hm hb ea hr
  have asi_ok (k : Host.Outcome State Fault Refusal) : whenAsiAllowed s asi k = k := whenAsiAllowed_of_allowed ha
  have hres := resolve_of_register hm hb hr
  refine ⟨fun hal => ⟨fun v hread => (asi_ok _).trans (loadToRegister_of_register (hres _) hal hread),
    fun hwrite => (asi_ok _).trans (storeRegister_of_register (hres _) hal hwrite), ?_⟩, fun hal he => ⟨?_, fun hno => ?_⟩⟩
  · obtain ⟨hsb, hub⟩ := loadBytes_refused (rd := rd) (hres .load)
    obtain ⟨hsh, huh⟩ := loadHalves_refused (rd := rd) (hres .load) hal
    obtain ⟨hstb, hsth⟩ := storeNarrow_refused (rd := rd) (hres .store) hal
    obtain ⟨hlb, hsw⟩ := atomics_refused (rd := rd) (hres .atomic) hal
    exact List.forall_iff_forall_mem.mp ⟨(asi_ok _).trans hsb, (asi_ok _).trans hub, (asi_ok _).trans hsh, (asi_ok _).trans huh,
      (asi_ok _).trans hstb, (asi_ok _).trans hsth, (asi_ok _).trans hlb, (asi_ok _).trans hsw⟩
  · rintro n rfl u
    exact ⟨fun x y hx hy => (asi_ok _).trans (loadToPair_of_timer (hres _) hal he hx hy),
      fun hx hy => (asi_ok _).trans (storePair_of_timer (hres _) hal he hx hy)⟩
  · exact List.forall_iff_forall_mem.mp ⟨(asi_ok _).trans (loadToPair_refused (hres _) hno hal he),
      (asi_ok _).trans (storePair_refused (hres _) hno hal he)⟩

end Sys2Proof.Machine
